-- ==== Sys2Proof/Word.lean ====
section
/-! DEFINITION. The word of the hardware and the widths of the fields of an instruction word
(00_scope.md R4, R6). Bit 15 of a word is the most significant bit, bit 0 the least; the
arithmetic of `BitVec 16` is the modulo-65536 arithmetic of 00_scope.md R7. -/

namespace Sys2Proof

/-- 16 bits: the unit of memory, of a register and of an instruction (R4, R7). -/
abbrev Word := BitVec 16

/-- A register field of an instruction word: the number, 0 to 7, of a general register (R11). -/
abbrev RegIdx := BitVec 3

/-- The opcode class, bits 15-13 (R50). -/
abbrev OpClass := BitVec 3

/-- The function code of class R, bits 3-0 (R51). -/
abbrev Func := BitVec 4

/-- The immediate of class I, bits 6-0 (R52). -/
abbrev Imm7 := BitVec 7

/-- The absolute word address of class J, bits 12-0 (R53). -/
abbrev Imm13 := BitVec 13

/-- A masked address: the low 13 bits of a 16-bit address (R31), an index 0 to 8191. -/
abbrev MemIndex := BitVec 13

end Sys2Proof
end

