-- ==== Sys2Proof/Syntax.lean ====
section
/-! DEFINITION. The instructions: one constructor per row of spec/opcode_table.json
(30_encoding.md R51 to R57). Operands are the fields of the word, in the word's order. The fields
no rule examines (`jr`'s srcB and dst, every field of a reserved word: R58) are kept, so that
an instruction stands for exactly one word. -/

namespace Sys2Proof

inductive Instr
  /-- R85. -/
  | add (srcA srcB dst : RegIdx)
  /-- R86. -/
  | sub (srcA srcB dst : RegIdx)
  /-- R87. -/
  | or (srcA srcB dst : RegIdx)
  /-- R88. -/
  | and (srcA srcB dst : RegIdx)
  /-- R89. -/
  | slt (srcA srcB dst : RegIdx)
  /-- R112; `srcB` and `dst` are not examined (R58). -/
  | jr (srcA srcB dst : RegIdx)
  /-- R95. -/
  | addi (src dst : RegIdx) (imm7 : Imm7)
  /-- R110. -/
  | j (imm13 : Imm13)
  /-- R111. -/
  | jal (imm13 : Imm13)
  /-- R101. -/
  | lw (src dst : RegIdx) (imm7 : Imm7)
  /-- R102; `dst` names the register whose value is stored. -/
  | sw (src dst : RegIdx) (imm7 : Imm7)
  /-- R113; `src` and `dst` are both only read. -/
  | jeq (src dst : RegIdx) (imm7 : Imm7)
  /-- R96. -/
  | slti (src dst : RegIdx) (imm7 : Imm7)
  /-- R57, R76: reserved function code 5. -/
  | rsvdF5 (srcA srcB dst : RegIdx)
  /-- R57, R76: reserved function codes 6 and 7. -/
  | rsvdF6_7 (srcA srcB dst : RegIdx) (func : Func)
  /-- R57, R76: reserved function code 9. -/
  | rsvdF9 (srcA srcB dst : RegIdx)
  /-- R57, R76: reserved function codes 10 and 11. -/
  | rsvdF10_11 (srcA srcB dst : RegIdx) (func : Func)
  /-- R57, R76: reserved function codes 12 to 15. -/
  | rsvdF12_15 (srcA srcB dst : RegIdx) (func : Func)
  deriving DecidableEq, Repr

end Sys2Proof
end

