-- ==== Sys2Proof/WellFormed.lean ====
section
/-! DEFINITION. Which terms of `Instr` are instructions. Every field of the right width is legal for
every row (R58, R59); only the three reserved rows that cover several function codes name a
subset of them (R57), so these three are checked. -/

namespace Sys2Proof

/-- The function code is one of the codes of the row (R57). -/
def Instr.wf : Instr → Bool
  | .add _ _ _ => true
  | .sub _ _ _ => true
  | .or _ _ _ => true
  | .and _ _ _ => true
  | .slt _ _ _ => true
  | .jr _ _ _ => true
  | .addi _ _ _ => true
  | .j _ => true
  | .jal _ => true
  | .lw _ _ _ => true
  | .sw _ _ _ => true
  | .jeq _ _ _ => true
  | .slti _ _ _ => true
  | .rsvdF5 _ _ _ => true
  | .rsvdF6_7 _ _ _ f => f == 6#4 || f == 7#4
  | .rsvdF9 _ _ _ => true
  | .rsvdF10_11 _ _ _ f => f == 10#4 || f == 11#4
  | .rsvdF12_15 _ _ _ f => f == 12#4 || f == 13#4 || f == 14#4 || f == 15#4

end Sys2Proof
end

