-- ==== Sys2Proof/Decode.lean ====
section
/-! DEFINITION. The decoder (30_encoding.md R50 to R61), total on all 65536 words, then the encoder and the
opcode table of R56 and R57 as data. No word is rejected: R59 says every word is one of the 13
instructions or a reserved no-op. -/

namespace Sys2Proof

/-- `op = w[15:13]` (R50). -/
def fieldOp (w : Word) : OpClass := w.extractLsb' 13 3
/-- `w[12:10]`: srcA of class R, src of class I (R51, R52). -/
def fieldA (w : Word) : RegIdx := w.extractLsb' 10 3
/-- `w[9:7]`: srcB of class R, dst of class I (R51, R52). -/
def fieldB (w : Word) : RegIdx := w.extractLsb' 7 3
/-- `w[6:4]`: dst of class R (R51). -/
def fieldD (w : Word) : RegIdx := w.extractLsb' 4 3
/-- `w[3:0]`: func of class R (R51). -/
def fieldFunc (w : Word) : Func := w.extractLsb' 0 4
/-- `w[6:0]`: imm7 of class I (R52). -/
def fieldImm7 (w : Word) : Imm7 := w.extractLsb' 0 7
/-- `w[12:0]`: imm13 of class J (R53). -/
def fieldImm13 (w : Word) : Imm13 := w.extractLsb' 0 13

/-- Class R, selected by the function code (R56, R57, R73); the reserved codes are the
UnknownOpcode case of R61. The last arm is the codes 12 to 15, all one row. -/
def decodeClassR (w : Word) : Instr :=
  match ((fieldFunc w).toFin : Fin 16) with
  | 0 => .add (fieldA w) (fieldB w) (fieldD w)
  | 1 => .sub (fieldA w) (fieldB w) (fieldD w)
  | 2 => .or (fieldA w) (fieldB w) (fieldD w)
  | 3 => .and (fieldA w) (fieldB w) (fieldD w)
  | 4 => .slt (fieldA w) (fieldB w) (fieldD w)
  | 5 => .rsvdF5 (fieldA w) (fieldB w) (fieldD w)
  | 6 => .rsvdF6_7 (fieldA w) (fieldB w) (fieldD w) (fieldFunc w)
  | 7 => .rsvdF6_7 (fieldA w) (fieldB w) (fieldD w) (fieldFunc w)
  | 8 => .jr (fieldA w) (fieldB w) (fieldD w)
  | 9 => .rsvdF9 (fieldA w) (fieldB w) (fieldD w)
  | 10 => .rsvdF10_11 (fieldA w) (fieldB w) (fieldD w) (fieldFunc w)
  | 11 => .rsvdF10_11 (fieldA w) (fieldB w) (fieldD w) (fieldFunc w)
  | _ => .rsvdF12_15 (fieldA w) (fieldB w) (fieldD w) (fieldFunc w)

/-- The instruction a word stands for: a pure, total function of the word (R56, R57, R61). -/
def decode (w : Word) : Instr :=
  match ((fieldOp w).toFin : Fin 8) with
  | 0 => decodeClassR w
  | 1 => .addi (fieldA w) (fieldB w) (fieldImm7 w)
  | 2 => .j (fieldImm13 w)
  | 3 => .jal (fieldImm13 w)
  | 4 => .lw (fieldA w) (fieldB w) (fieldImm7 w)
  | 5 => .sw (fieldA w) (fieldB w) (fieldImm7 w)
  | 6 => .jeq (fieldA w) (fieldB w) (fieldImm7 w)
  | 7 => .slti (fieldA w) (fieldB w) (fieldImm7 w)

/-- The host's reading of the decoder: the instruction in the low `nbits` bits of `w`. Every
instruction is one word of 16 bits (R50), so more bits are no instruction of this hardware. -/
def decodeTableWord (nbits w : Nat) : Option Instr :=
  if nbits ≤ 16 then some (decode (BitVec.ofNat 16 (w % 2 ^ nbits))) else none

/-- A word with the field `f` at bits `lo` and up, and zeros elsewhere. -/
def place {n : Nat} (f : BitVec n) (lo : Nat) : Word := f.setWidth 16 <<< lo

/-- The word of class R: op = 000, srcA, srcB, dst, func (R51). -/
def packR (srcA srcB dst : RegIdx) (func : Func) : Word :=
  place 0#3 13 ||| place srcA 10 ||| place srcB 7 ||| place dst 4 ||| place func 0

/-- The word of class I: op, src, dst, imm7 (R52). -/
def packI (op : OpClass) (src dst : RegIdx) (imm7 : Imm7) : Word :=
  place op 13 ||| place src 10 ||| place dst 7 ||| place imm7 0

/-- The word of class J: op, imm13 (R53). -/
def packJ (op : OpClass) (imm13 : Imm13) : Word :=
  place op 13 ||| place imm13 0

/-- The word of a well-formed instruction (R56, R57). -/
def encode : Instr → Word
  | .add a b d => packR a b d 0#4
  | .sub a b d => packR a b d 1#4
  | .or a b d => packR a b d 2#4
  | .and a b d => packR a b d 3#4
  | .slt a b d => packR a b d 4#4
  | .jr a b d => packR a b d 8#4
  | .addi s d i => packI 1#3 s d i
  | .j i => packJ 2#3 i
  | .jal i => packJ 3#3 i
  | .lw s d i => packI 4#3 s d i
  | .sw s d i => packI 5#3 s d i
  | .jeq s d i => packI 6#3 s d i
  | .slti s d i => packI 7#3 s d i
  | .rsvdF5 a b d => packR a b d 5#4
  | .rsvdF6_7 a b d f => packR a b d f
  | .rsvdF9 a b d => packR a b d 9#4
  | .rsvdF10_11 a b d f => packR a b d f
  | .rsvdF12_15 a b d f => packR a b d f

/-- One row of the opcode map: a word belongs to it when its bits under `mask` are `bits` (R56). -/
structure OpcodeRow where
  mnemonic : String
  mask : Word
  bits : Word
  deriving DecidableEq, Repr

/-- The row of the opcode map an instruction belongs to (R56, R57). -/
def Instr.row : Instr → OpcodeRow
  | .add _ _ _ => ⟨"add", 0xE00F#16, 0x0000#16⟩
  | .sub _ _ _ => ⟨"sub", 0xE00F#16, 0x0001#16⟩
  | .or _ _ _ => ⟨"or", 0xE00F#16, 0x0002#16⟩
  | .and _ _ _ => ⟨"and", 0xE00F#16, 0x0003#16⟩
  | .slt _ _ _ => ⟨"slt", 0xE00F#16, 0x0004#16⟩
  | .jr _ _ _ => ⟨"jr", 0xE00F#16, 0x0008#16⟩
  | .addi _ _ _ => ⟨"addi", 0xE000#16, 0x2000#16⟩
  | .j _ => ⟨"j", 0xE000#16, 0x4000#16⟩
  | .jal _ => ⟨"jal", 0xE000#16, 0x6000#16⟩
  | .lw _ _ _ => ⟨"lw", 0xE000#16, 0x8000#16⟩
  | .sw _ _ _ => ⟨"sw", 0xE000#16, 0xA000#16⟩
  | .jeq _ _ _ => ⟨"jeq", 0xE000#16, 0xC000#16⟩
  | .slti _ _ _ => ⟨"slti", 0xE000#16, 0xE000#16⟩
  | .rsvdF5 _ _ _ => ⟨"rsvd.f5", 0xE00F#16, 0x0005#16⟩
  | .rsvdF6_7 _ _ _ _ => ⟨"rsvd.f6_7", 0xE00E#16, 0x0006#16⟩
  | .rsvdF9 _ _ _ => ⟨"rsvd.f9", 0xE00F#16, 0x0009#16⟩
  | .rsvdF10_11 _ _ _ _ => ⟨"rsvd.f10_11", 0xE00E#16, 0x000A#16⟩
  | .rsvdF12_15 _ _ _ _ => ⟨"rsvd.f12_15", 0xE00C#16, 0x000C#16⟩

/-- The opcode map in the order of spec/opcode_table.json: 13 instructions, 5 reserved rows. -/
def opcodeTable : List OpcodeRow :=
  [⟨"add", 0xE00F#16, 0x0000#16⟩, ⟨"sub", 0xE00F#16, 0x0001#16⟩,
   ⟨"or", 0xE00F#16, 0x0002#16⟩, ⟨"and", 0xE00F#16, 0x0003#16⟩,
   ⟨"slt", 0xE00F#16, 0x0004#16⟩, ⟨"jr", 0xE00F#16, 0x0008#16⟩,
   ⟨"addi", 0xE000#16, 0x2000#16⟩, ⟨"j", 0xE000#16, 0x4000#16⟩,
   ⟨"jal", 0xE000#16, 0x6000#16⟩, ⟨"lw", 0xE000#16, 0x8000#16⟩,
   ⟨"sw", 0xE000#16, 0xA000#16⟩, ⟨"jeq", 0xE000#16, 0xC000#16⟩,
   ⟨"slti", 0xE000#16, 0xE000#16⟩, ⟨"rsvd.f5", 0xE00F#16, 0x0005#16⟩,
   ⟨"rsvd.f6_7", 0xE00E#16, 0x0006#16⟩, ⟨"rsvd.f9", 0xE00F#16, 0x0009#16⟩,
   ⟨"rsvd.f10_11", 0xE00E#16, 0x000A#16⟩, ⟨"rsvd.f12_15", 0xE00C#16, 0x000C#16⟩]

/-- `w` belongs to the row: its bits under the row's mask are the row's. -/
def rowMatches (w : Word) (r : OpcodeRow) : Bool := w &&& r.mask == r.bits

end Sys2Proof
end

