-- ==== Sys2Proof/Config.lean ====
section
/-! DEFINITION. The fixed parameters of the hardware (00_scope.md R4) and the types of the
parameters a run takes (00_scope.md R5, 10_state.md R19). The parameters' values of a run stand
in `State`, since the spec lists the cache configuration among the state (R10). -/

namespace Sys2Proof

/-- MEMWORDS: the number of memory words (R4, R18). -/
def Config.memWords : Nat := 8192

/-- What a memory word reads as that nothing has written: 0x0000 (R28; decision D4 of the spec;
notes/assumptions/2.md). -/
def Config.memReset : Word := 0#16

/-- The link register of `jal` (R4). -/
def Config.linkReg : RegIdx := 7#3

/-- The associativities a legal configuration may have (R5, R123). -/
def Config.legalAssoc : List Nat := [1, 2, 4, 8, 16]

/-- The block sizes, in words, a legal configuration may have (R5, R123). -/
def Config.legalBlock : List Nat := [1, 2, 4, 8, 16, 32, 64]

/-- The three configuration values of one cache: total capacity in words, associativity (tags per
row) and block size in words (R19). Plain numbers: no program ever sees them as words. -/
structure Geometry where
  capacity : Nat
  assoc : Nat
  block : Nat
  deriving DecidableEq, Repr

/-- The cache configuration of a run: CACHE_LEVELS is 0, 1 or 2 (R19, R121). -/
inductive CacheConfig
  /-- CACHE_LEVELS = 0: execution only. -/
  | none
  /-- CACHE_LEVELS = 1: L1 alone. -/
  | one (l1 : Geometry)
  /-- CACHE_LEVELS = 2: L1, then L2. -/
  | two (l1 l2 : Geometry)
  deriving DecidableEq, Repr

end Sys2Proof
end

