-- ==== Sys2Proof/Machine/State.lean ====
section
/-! DEFINITION. The complete state of the block (10_state.md R10), the events of the output stream
(R26, 45_cache_model.md R138), the reasons a step can stop, and the state right after reset (R28).
All of it is plain data. -/

namespace Sys2Proof.Machine

open Sys2Proof

/-- Memory, sparse: (index, word) pairs in rising order of index, no pair holding the value an
unlisted index reads as. The hardware has no bytes (R35), so a cell is a word: DESIGN CHOICE, safe
(notes/assumptions/1.md). The form is `Memory.wf`, in Machine/Ops.lean. -/
abbrev Memory := List (Nat × Word)

/-- One row of a cache: its tags, least recently used first (R20, R126). A tag is a natural
number (R125). -/
abbrev Row := List Nat

/-- The rows of one cache, indexed by row number (R20). -/
abbrev Rows := List Row

/-- Which cache an event comes from: the names "L1" and "L2" (R121, R138). -/
inductive CacheName
  | l1
  | l2
  deriving DecidableEq, Repr

/-- HIT: a load whose tag was found; MISS: a load whose tag was not; SW: any store (R139). -/
inductive AccessKind
  | hit
  | miss
  | sw
  deriving DecidableEq, Repr

/-- One record of the event stream, its five fields in the spec's order (R138). `pc` is the
unmasked program counter of the `lw` or `sw`; `address` the masked effective address. -/
structure Event where
  cacheName : CacheName
  kind : AccessKind
  pc : Word
  address : MemIndex
  row : Nat
  deriving DecidableEq, Repr

/-- The state of the block (R10), with its output stream (R26) and the open parameter
STRICT_DECODE (R5). -/
structure State where
  /-- The register file `regs[0..7]` (R10, R12); slot 0 is never read or written
  (notes/assumptions/12.md), register 0 being hard-wired (R11). -/
  regs : Vector Word 8
  /-- The program counter, not masked (R14). -/
  pc : Word
  /-- The only status flag (R16). -/
  halted : Bool
  /-- `mem[0..8191]` (R18). -/
  mem : Memory
  /-- CACHE_LEVELS and the triples: constants of a run (R19). -/
  config : CacheConfig
  /-- The rows of L1 (R20); none when L1 is not configured (notes/assumptions/9.md). -/
  rows1 : Rows
  /-- The rows of L2 (R20); none when L2 is not configured (notes/assumptions/9.md). -/
  rows2 : Rows
  /-- The event output stream so far, oldest first (R26). -/
  events : List Event
  /-- STRICT_DECODE, a constant of a run (R5, R60, R158); the model's own field
  (notes/assumptions/5.md). -/
  strictDecode : Bool
  deriving DecidableEq, Repr

/-- Why a step stops with a fault. -/
inductive Fault
  /-- Raised by the five reserved class-R rows when STRICT_DECODE is true, and by nothing else: the
  IllegalInstruction condition of strict mode, which ends the run with the state unchanged by the
  word (R60, R158, decision D13 of the spec). Safe: the model stops where a hardened machine might
  go on, and it never occurs in the default mode (notes/assumptions/5.md). -/
  | illegalInstruction
  deriving DecidableEq, Repr

/-- Why the model refuses. -/
inductive Refusal
  /-- Raised by an arm of `exec` whose instruction has no meaning yet: none. Safe. -/
  | notModelled (mnemonic : String)
  /-- Raised by `step` in a state with an illegal cache configuration, and by the host's
  configuration of one: the spec refuses it before the first step (R123, decision D18). Safe. -/
  | illegalConfiguration
  /-- Raised by the host's load of an image longer than memory: such an image never reaches the
  block (R24, R151). Safe. -/
  | imageTooLong
  deriving DecidableEq, Repr

/-- The machine right after reset (R28), before an image is loaded. Registers, pc, halted flag and
memory have the values R28 gives by the spec's decisions D2 to D5 (notes/assumptions/2.md and 3.md).
The spec keeps the configuration across reset and gives it no first value: DESIGN CHOICE, unsafe: no
cache (notes/assumptions/4.md); the decode mode is the spec's default. -/
def State.reset : State where
  regs := Vector.replicate 8 0#16
  pc := 0#16
  halted := false
  mem := []
  config := .none
  rows1 := []
  rows2 := []
  events := []
  strictDecode := false

end Sys2Proof.Machine
end

