-- ==== Sys2Proof/Machine/Ops.lean ====
section
/-! DEFINITION. The named operations over registers, memory, the program counter and the event stream
(10_state.md R12, R14, R26; 20_memory.md R31, R33, R34; 40_execution_step.md R71, R74, R75), and
what stands in the place of taking an exception: the hardware takes none (60_exceptions.md R150,
R154) and returns from none (R155). -/

namespace Sys2Proof.Machine

open Sys2Proof

/-! ### Memory -/

/-- The word at an index; an unlisted index reads as after reset (R28, R33). -/
def Memory.read : Memory → Nat → Word
  | [], _ => Config.memReset
  | (i, v) :: rest, k => if i = k then v else Memory.read rest k

/-- The memory with nothing listed at index `k`. -/
def Memory.unlist (m : Memory) (k : Nat) : Memory := m.filter fun c => c.1 ≠ k

/-- The memory with `(k, v)` listed before the first greater index. -/
def Memory.list : Memory → Nat → Word → Memory
  | [], k, v => [(k, v)]
  | (i, x) :: rest, k, v => if k < i then (k, v) :: (i, x) :: rest else (i, x) :: Memory.list rest k v

/-- The memory with `v` at index `k`, in canonical form (R34). -/
def Memory.write (m : Memory) (k : Nat) (v : Word) : Memory :=
  if v = Config.memReset then m.unlist k else (m.unlist k).list k v

/-- The canonical form: indexes strictly rising, each below 8192, no entry equal to what an
unlisted index reads as. -/
abbrev Memory.wf (m : Memory) : Prop :=
  m.Pairwise (fun c d => c.1 < d.1) ∧ ∀ c ∈ m, c.1 < Config.memWords ∧ c.2 ≠ Config.memReset

/-- The low 13 bits of an address, `a & 0x1FFF` (R31). -/
def maskAddr (a : Word) : MemIndex := a.setWidth 13

/-! ### One field of the state set, the others kept -/

def State.setRegs (s : State) (r : Vector Word 8) : State := { s with regs := r }
/-- The commit of the program counter, unmasked (R75). -/
def State.setPc (s : State) (t : Word) : State := { s with pc := t }
def State.setHalted (s : State) (h : Bool) : State := { s with halted := h }
def State.setMem (s : State) (m : Memory) : State := { s with mem := m }
def State.setRows1 (s : State) (r : Rows) : State := { s with rows1 := r }
def State.setRows2 (s : State) (r : Rows) : State := { s with rows2 := r }
/-- `emit(e)` appends the event to the output stream (R26). -/
def State.emit (s : State) (e : Event) : State := { s with events := s.events ++ [e] }

/-! ### Registers -/

/-- `x[i]`: register 0 always reads as 0 (R11, R12). -/
def State.reg (s : State) (i : RegIdx) : Word :=
  if i = 0#3 then 0#16 else s.regs[i.toNat]'(i.isLt)

/-- `x[i] <- v`: a write of register 0 does not happen (R12). -/
def State.writeReg (s : State) (i : RegIdx) (v : Word) : State :=
  if i = 0#3 then s else s.setRegs (s.regs.set i.toNat v i.isLt)

/-! ### Memory of the state -/

/-- MemRead at a masked address (R33). -/
def State.memRead (s : State) (a : MemIndex) : Word := s.mem.read a.toNat

/-- MemWrite at a masked address (R34). -/
def State.memWrite (s : State) (a : MemIndex) (v : Word) : State :=
  s.setMem (s.mem.write a.toNat v)

/-- The instruction word at the program counter (R71). -/
def State.fetch (s : State) : Word := s.memRead (maskAddr s.pc)

/-! ### The program counter -/

/-- `pc <- pc +16 1`: the default next program counter (R74), modulo 65536 (R15). -/
def State.advance (s : State) : State := s.setPc (s.pc + 1#16)

/-! ### In the place of an exception -/

/-- A reserved function code, the decoder's UnknownOpcode signal: a no-op that advances the program
counter (R57, R76); with STRICT_DECODE the IllegalInstruction condition, which ends the run with
the state unchanged (R60, R158). -/
def unknownOpcode (s : State) : Host.Outcome State Fault Refusal :=
  if s.strictDecode then .fault .illegalInstruction else .next s.advance

end Sys2Proof.Machine
end

