-- ==== Sys2Proof/Machine/Flags.lean ====
section
/-! DEFINITION. The flag computations. There are no condition codes (10_state.md R17): the comparisons leave
their 0 or 1 in a general register, and `halted`, set by a self-jump `j` alone, is the only flag
(R16, 44_control_transfer.md R110). -/

namespace Sys2Proof.Machine

open Sys2Proof

/-- `if a <u b then 0x0001 else 0x0000` (41_alu_register.md R89, 42_alu_immediate.md R96). -/
def ltBit (a b : Word) : Word := if a.ult b then 0x0001#16 else 0x0000#16

/-- `if t == pc then halted <- 1`: all 16 bits of both are compared (R110); never cleared (R16). -/
def State.haltIfSelf (s : State) (t : Word) : State :=
  if t = s.pc then s.setHalted true else s

end Sys2Proof.Machine
end

