-- ==== Sys2Proof/Machine/AluRegister.lean ====
section
/-! DEFINITION. The register-register ALU instructions (41_alu_register.md R84 to R89). -/

namespace Sys2Proof.Machine

open Sys2Proof

/-- What the instructions that only compute a register do: write it (discarded for register 0,
R12), then advance the program counter (R84). -/
def State.writeAndAdvance (s : State) (dst : RegIdx) (v : Word) : State :=
  (s.writeReg dst v).advance

/-- add (R85). -/
def execAdd (srcA srcB dst : RegIdx) (s : State) : Host.Outcome State Fault Refusal :=
  .next (s.writeAndAdvance dst (s.reg srcA + s.reg srcB))

/-- sub: srcA minus srcB (R86; decision D8 of the spec). -/
def execSub (srcA srcB dst : RegIdx) (s : State) : Host.Outcome State Fault Refusal :=
  .next (s.writeAndAdvance dst (s.reg srcA - s.reg srcB))

/-- or (R87). -/
def execOr (srcA srcB dst : RegIdx) (s : State) : Host.Outcome State Fault Refusal :=
  .next (s.writeAndAdvance dst (s.reg srcA ||| s.reg srcB))

/-- and (R88). -/
def execAnd (srcA srcB dst : RegIdx) (s : State) : Host.Outcome State Fault Refusal :=
  .next (s.writeAndAdvance dst (s.reg srcA &&& s.reg srcB))

/-- slt: unsigned (R89). -/
def execSlt (srcA srcB dst : RegIdx) (s : State) : Host.Outcome State Fault Refusal :=
  .next (s.writeAndAdvance dst (ltBit (s.reg srcA) (s.reg srcB)))

end Sys2Proof.Machine
end

