-- ==== Sys2Proof/Machine/Operands.lean ====
section
/-! DEFINITION. The operand forms: the extensions of the immediates (30_encoding.md R54, R55), the one
addressing mode (43_load_store.md R100), and the targets and the link value of the control
transfers (10_state.md R15, 44_control_transfer.md R110 to R113). -/

namespace Sys2Proof.Machine

open Sys2Proof

/-- `sext_16(imm7)`: the immediate itself when its bit 6 is 0, else with 0xFF80 or-ed in (R54). -/
def sext16 (f : Imm7) : Word :=
  if f.getLsbD 6 then f.setWidth 16 ||| 0xFF80#16 else f.setWidth 16

/-- `zext_16(imm7)`: the unsigned use of `slti` (R55). -/
def zext16 (f : Imm7) : Word := f.setWidth 16

/-- `zext_16(imm13)`: the absolute target of `j` and `jal`, 0 to 8191 (R55). -/
def jumpTarget (f : Imm13) : Word := f.setWidth 16

/-- `ea = (x[src] +16 sext_16(imm7)) & 0x1FFF` (R100). -/
def effectiveAddress (s : State) (src : RegIdx) (imm7 : Imm7) : MemIndex :=
  maskAddr (s.reg src + sext16 imm7)

/-- `pc +16 1 +16 sext_16(imm7)`: the target of a taken `jeq`, not masked (R113). -/
def branchTarget (s : State) (imm7 : Imm7) : Word := s.pc + 1#16 + sext16 imm7

/-- `pc +16 1`: the full 16-bit link value of `jal`, not masked (R111). -/
def linkValue (s : State) : Word := s.pc + 1#16

end Sys2Proof.Machine
end

