-- ==== Sys2Proof/Machine/AluImmediate.lean ====
section
/-! DEFINITION. The register-immediate ALU instructions (42_alu_immediate.md R95, R96). -/

namespace Sys2Proof.Machine

open Sys2Proof

/-- addi: the immediate is sign-extended (R95). -/
def execAddi (src dst : RegIdx) (imm7 : Imm7) (s : State) : Host.Outcome State Fault Refusal :=
  .next (s.writeAndAdvance dst (s.reg src + sext16 imm7))

/-- slti: the immediate is zero-extended and the compare unsigned (R96; decision D12). -/
def execSlti (src dst : RegIdx) (imm7 : Imm7) (s : State) : Host.Outcome State Fault Refusal :=
  .next (s.writeAndAdvance dst (ltBit (s.reg src) (zext16 imm7)))

end Sys2Proof.Machine
end

