-- ==== Sys2Proof/Machine/Control.lean ====
section
/-! DEFINITION. The control transfers and the halt (44_control_transfer.md R110 to R115). -/

namespace Sys2Proof.Machine

open Sys2Proof

/-- j: halts when the target is the current program counter, all 16 bits compared (R110;
decision D7). -/
def execJ (imm13 : Imm13) (s : State) : Host.Outcome State Fault Refusal :=
  .next ((s.haltIfSelf (jumpTarget imm13)).setPc (jumpTarget imm13))

/-- jal: links register 7; never halts (R111). -/
def execJal (imm13 : Imm13) (s : State) : Host.Outcome State Fault Refusal :=
  .next ((s.writeReg Config.linkReg (linkValue s)).setPc (jumpTarget imm13))

/-- jr: the whole 16-bit register becomes the program counter; never halts (R112). -/
def execJr (srcA : RegIdx) (s : State) : Host.Outcome State Fault Refusal :=
  .next (s.setPc (s.reg srcA))

/-- jeq (R113). -/
def execJeq (src dst : RegIdx) (imm7 : Imm7) (s : State) : Host.Outcome State Fault Refusal :=
  .next (if s.reg src = s.reg dst then s.setPc (branchTarget s imm7) else s.advance)

end Sys2Proof.Machine
end

