-- ==== Sys2Proof/Machine/Cache.lean ====
section
/-! DEFINITION. The cache model (45_cache_model.md): geometry and legality (R121 to R123), address
decomposition (R124), one row (R126 to R128), the access to one cache (R129, R130) and the chain
of L1 and L2 (R136, R137). It observes addresses and emits events; it returns nothing to the
execution engine (R120). -/

namespace Sys2Proof.Machine

open Sys2Proof

/-- `ROWS_k = CAPACITY_k div (ASSOC_k x BLOCK_k)` (R122). -/
def rowCount (g : Geometry) : Nat := g.capacity / (g.assoc * g.block)

/-- A legal triple: both sizes from their sets, exact division, at least one row (R123). -/
def legalGeometry (g : Geometry) : Bool :=
  Config.legalAssoc.contains g.assoc && Config.legalBlock.contains g.block &&
    g.capacity % (g.assoc * g.block) == 0 && decide (1 ≤ rowCount g)

/-- A legal configuration: every configured cache has a legal triple (R123). -/
def legalConfig : CacheConfig → Bool
  | .none => true
  | .one g1 => legalGeometry g1
  | .two g1 g2 => legalGeometry g1 && legalGeometry g2

/-- The rows of a cache as they are created: every row empty (R20, R28). -/
def emptyRows (g : Geometry) : Rows := List.replicate (rowCount g) []

/-- The rows of L1 in a configuration, as created. -/
def emptyRows1 : CacheConfig → Rows
  | .none => []
  | .one g1 => emptyRows g1
  | .two g1 _ => emptyRows g1

/-- The rows of L2 in a configuration, as created. -/
def emptyRows2 : CacheConfig → Rows
  | .none => []
  | .one _ => []
  | .two _ g2 => emptyRows g2

/-- `block_id = a div BLOCK_k` (R124). -/
def blockId (g : Geometry) (a : MemIndex) : Nat := a.toNat / g.block

/-- `row = block_id mod ROWS_k` (R124). -/
def rowOf (g : Geometry) (a : MemIndex) : Nat := blockId g a % rowCount g

/-- `tag = block_id div ROWS_k` (R124). -/
def tagOf (g : Geometry) (a : MemIndex) : Nat := blockId g a / rowCount g

/-- Touch (R128): the tag becomes the most recently used of its row. A present tag is moved to the
back and nothing is evicted; an absent one is appended, after the front, the least recently used,
is dropped when the row is full. -/
def touch (assoc : Nat) (row : Row) (tag : Nat) : Row :=
  if row.contains tag then row.erase tag ++ [tag]
  else (if row.length = assoc then row.tail else row) ++ [tag]

/-- The result of an access to one cache: what is reported (R129, R130; decision D21) and the rows
afterwards. -/
structure AccessResult where
  kind : AccessKind
  row : Nat
  rows : Rows
  deriving DecidableEq, Repr

/-- The rows after the row of `a` is touched with the tag of `a` (R128). -/
def touchRows (g : Geometry) (rows : Rows) (a : MemIndex) : Rows :=
  rows.set (rowOf g a) (touch g.assoc (rows.getD (rowOf g a) []) (tagOf g a))

/-- Whether the tag of `a` is in its row (R127). -/
def isCached (g : Geometry) (rows : Rows) (a : MemIndex) : Bool :=
  (rows.getD (rowOf g a) []).contains (tagOf g a)

/-- ReadAccess_k (R129). -/
def readAccess (g : Geometry) (rows : Rows) (a : MemIndex) : AccessResult :=
  { kind := if isCached g rows a then .hit else .miss
    row := rowOf g a
    rows := touchRows g rows a }

/-- WriteAccess_k (R130). -/
def writeAccess (g : Geometry) (rows : Rows) (a : MemIndex) : AccessResult :=
  { kind := .sw, row := rowOf g a, rows := touchRows g rows a }

/-- The state after an access to L1 with the given result: its rows kept and its event emitted. -/
def State.commitL1 (s : State) (r : AccessResult) (a : MemIndex) (p : Word) : State :=
  (s.setRows1 r.rows).emit ⟨.l1, r.kind, p, a, r.row⟩

/-- The state after an access to L2 with the given result. -/
def State.commitL2 (s : State) (r : AccessResult) (a : MemIndex) (p : Word) : State :=
  (s.setRows2 r.rows).emit ⟨.l2, r.kind, p, a, r.row⟩

/-- CacheRead (R136): L2 is accessed on an L1 miss only, with the same address and pc. -/
def State.cacheRead (s : State) (a : MemIndex) (p : Word) : State :=
  match s.config with
  | .none => s
  | .one g1 => s.commitL1 (readAccess g1 s.rows1 a) a p
  | .two g1 g2 =>
    if (readAccess g1 s.rows1 a).kind = .miss then
      (s.commitL1 (readAccess g1 s.rows1 a) a p).commitL2 (readAccess g2 s.rows2 a) a p
    else s.commitL1 (readAccess g1 s.rows1 a) a p

/-- CacheWrite (R137): both caches receive every store. -/
def State.cacheWrite (s : State) (a : MemIndex) (p : Word) : State :=
  match s.config with
  | .none => s
  | .one g1 => s.commitL1 (writeAccess g1 s.rows1 a) a p
  | .two g1 g2 =>
    (s.commitL1 (writeAccess g1 s.rows1 a) a p).commitL2 (writeAccess g2 s.rows2 a) a p

end Sys2Proof.Machine
end

