-- ==== Sys2Proof/Machine/LoadStore.lean ====
section
/-! DEFINITION. The load and the store (43_load_store.md R100 to R102). The register or memory write comes
first, then the cache access with its events, then the commit of the program counter
(40_execution_step.md R77); the address and the stored value are those of the start of the step
(R73). -/

namespace Sys2Proof.Machine

open Sys2Proof

/-- lw: the cache access is made even when dst is 0 (R101). -/
def execLw (src dst : RegIdx) (imm7 : Imm7) (s : State) : Host.Outcome State Fault Refusal :=
  .next (((s.writeReg dst (s.memRead (effectiveAddress s src imm7))).cacheRead
    (effectiveAddress s src imm7) s.pc).advance)

/-- sw: the field dst names the register stored (R102). -/
def execSw (src dst : RegIdx) (imm7 : Imm7) (s : State) : Host.Outcome State Fault Refusal :=
  .next (((s.memWrite (effectiveAddress s src imm7) (s.reg dst)).cacheWrite
    (effectiveAddress s src imm7) s.pc).advance)

end Sys2Proof.Machine
end

