-- ==== Sys2Proof/Machine/Reserved.lean ====
section
/-! DEFINITION. The reserved class-R function codes (40_execution_step.md R76, 30_encoding.md R57, R60). -/

namespace Sys2Proof.Machine

/-- func 5 (R76). -/
def execRsvdF5 (s : State) : Host.Outcome State Fault Refusal := unknownOpcode s
/-- func 6 and 7 (R76). -/
def execRsvdF6_7 (s : State) : Host.Outcome State Fault Refusal := unknownOpcode s
/-- func 9 (R76). -/
def execRsvdF9 (s : State) : Host.Outcome State Fault Refusal := unknownOpcode s
/-- func 10 and 11 (R76). -/
def execRsvdF10_11 (s : State) : Host.Outcome State Fault Refusal := unknownOpcode s
/-- func 12 to 15 (R76). -/
def execRsvdF12_15 (s : State) : Host.Outcome State Fault Refusal := unknownOpcode s

end Sys2Proof.Machine
end

