-- ==== Sys2Proof/Machine/Dispatch.lean ====
section
/-! DEFINITION. The dispatch (40_execution_step.md R73): one arm per instruction. -/

namespace Sys2Proof.Machine

open Sys2Proof

def exec (i : Instr) (s : State) : Host.Outcome State Fault Refusal :=
  match i with
  | .add srcA srcB dst => Sys2Proof.Machine.execAdd srcA srcB dst s
  | .sub srcA srcB dst => Sys2Proof.Machine.execSub srcA srcB dst s
  | .or srcA srcB dst => Sys2Proof.Machine.execOr srcA srcB dst s
  | .and srcA srcB dst => Sys2Proof.Machine.execAnd srcA srcB dst s
  | .slt srcA srcB dst => Sys2Proof.Machine.execSlt srcA srcB dst s
  | .jr srcA _ _ => Sys2Proof.Machine.execJr srcA s
  | .addi src dst imm7 => Sys2Proof.Machine.execAddi src dst imm7 s
  | .j imm13 => Sys2Proof.Machine.execJ imm13 s
  | .jal imm13 => Sys2Proof.Machine.execJal imm13 s
  | .lw src dst imm7 => Sys2Proof.Machine.execLw src dst imm7 s
  | .sw src dst imm7 => Sys2Proof.Machine.execSw src dst imm7 s
  | .jeq src dst imm7 => Sys2Proof.Machine.execJeq src dst imm7 s
  | .slti src dst imm7 => Sys2Proof.Machine.execSlti src dst imm7 s
  | .rsvdF5 _ _ _ => Sys2Proof.Machine.execRsvdF5 s
  | .rsvdF6_7 _ _ _ _ => Sys2Proof.Machine.execRsvdF6_7 s
  | .rsvdF9 _ _ _ => Sys2Proof.Machine.execRsvdF9 s
  | .rsvdF10_11 _ _ _ _ => Sys2Proof.Machine.execRsvdF10_11 s
  | .rsvdF12_15 _ _ _ _ => Sys2Proof.Machine.execRsvdF12_15 s

end Sys2Proof.Machine
end

