-- ==== Sys2Proof/Machine/Step.lean ====
section
/-! DEFINITION. The step (40_execution_step.md R70 to R80) and the placing of an instruction where the next
step fetches. -/

namespace Sys2Proof.Machine

open Sys2Proof

/-- One step request: refused under an illegal configuration, which has no run (R123); no change
when halted (R79); else the instruction at the program counter is fetched, decoded and carried
out (R70 to R75, R80). -/
def step (s : State) : Host.Outcome State Fault Refusal :=
  if legalConfig s.config then
    if s.halted then .next s else exec (decode s.fetch) s
  else .refused .illegalConfiguration

/-- The low `nbits` bits of `w` stored as the word at the program counter, the machine ready to
step (R71). It stands for the host's image load (notes/assumptions/6.md). -/
def State.withFetchWord (s : State) (nbits w : Nat) : State :=
  (s.memWrite (maskAddr s.pc) (BitVec.ofNat 16 (w % 2 ^ nbits))).setHalted false

end Sys2Proof.Machine
end

