-- ==== Sys2Proof/Machine/HostPort.lean ====
section
/-! DEFINITION. What the outside world can do to the block between steps (10_state.md R22 to R27,
70_reset_and_hazards.md R170, R173), but for the step request, which is `step`. That the host loads
only between reset and the first step, and configures only before a run, is the host's duty (R173):
these operations do not check it. -/

namespace Sys2Proof.Machine

open Sys2Proof

/-- The configuration of a run: rows are created empty; an illegal one is refused (R19, R121,
R123). -/
def State.configure (s : State) (c : CacheConfig) (strict : Bool) :
    Host.Outcome State Fault Refusal :=
  if legalConfig c then
    .next { s with config := c, rows1 := emptyRows1 c, rows2 := emptyRows2 c, strictDecode := strict }
  else .refused .illegalConfiguration

/-- The reset transaction (R23, R28): everything at its reset value, the configuration kept, every
row of every configured cache empty. -/
def State.hostReset (s : State) : State :=
  { State.reset with
    config := s.config
    rows1 := emptyRows1 s.config
    rows2 := emptyRows2 s.config
    strictDecode := s.strictDecode }

/-- Consecutive words written from index `i` upward. -/
def Memory.load : Memory → Nat → List Word → Memory
  | m, _, [] => m
  | m, i, w :: rest => Memory.load (m.write i w) (i + 1) rest

/-- The image load (R24): `mem[i] := IMAGE[i]`; an image longer than memory never reaches the
block. -/
def State.loadImage (s : State) (image : List Word) : Host.Outcome State Fault Refusal :=
  if image.length ≤ Config.memWords then .next (s.setMem (s.mem.load 0 image))
  else .refused .imageTooLong

/-- What a step presents to the host (R25). -/
def State.stepOutput (s : State) : Word × Bool := (s.pc, s.halted)

/-- What the host reads of the state (R27): `x[0]` reads 0. -/
structure Snapshot where
  pc : Word
  x : List Word
  mem : List Word
  halted : Bool
  deriving DecidableEq, Repr

/-- The state read access; it changes nothing (R27). -/
def State.snapshot (s : State) : Snapshot where
  pc := s.pc
  x := (List.range 8).map fun i => s.reg (BitVec.ofNat 3 i)
  mem := (List.range Config.memWords).map s.mem.read
  halted := s.halted

end Sys2Proof.Machine
end

