-- ==== Sys2Proof/Safety.lean ====
section
/-! DEFINITION. The terms claims about the machine use: the invariant every step keeps, the relations that
say what a step leaves unchanged, the registers an instruction reads and writes (10_state.md R13),
and sequences of cache accesses (45_cache_model.md R141). -/

namespace Sys2Proof.Machine

open Sys2Proof

/-! ### The invariant -/

/-- The rows of one cache as R126 says they are: ROWS_k of them, each of at most ASSOC_k distinct
tags, none above the largest tag an address has (R125). -/
def RowsWf (g : Geometry) (rows : Rows) : Prop :=
  rows.length = rowCount g ∧
    ∀ r ∈ rows, r.length ≤ g.assoc ∧ r.Nodup ∧ ∀ t ∈ r, t ≤ 8191 / g.block / rowCount g

/-- Every configured cache has well-formed rows (R126); a cache that is not configured has none, which
is the model's choice (notes/assumptions/9.md). -/
def CachesWf (c : CacheConfig) (rows1 rows2 : Rows) : Prop :=
  match c with
  | .none => rows1 = [] ∧ rows2 = []
  | .one g1 => RowsWf g1 rows1 ∧ rows2 = []
  | .two g1 g2 => RowsWf g1 rows1 ∧ RowsWf g2 rows2

/-- An event names a configured cache and a row that cache has (R138). -/
def EventWf (c : CacheConfig) (e : Event) : Prop :=
  match c, e.cacheName with
  | .none, _ => False
  | .one g1, .l1 => e.row < rowCount g1
  | .one _, .l2 => False
  | .two g1 _, .l1 => e.row < rowCount g1
  | .two _ g2, .l2 => e.row < rowCount g2

/-- What holds of every state a host brings the machine to. -/
structure Inv (s : State) : Prop where
  /-- Memory has its canonical form, the model's choice (notes/assumptions/1.md). -/
  mem : s.mem.wf
  /-- The slot behind register 0 holds 0, the model's choice (notes/assumptions/12.md). -/
  zero : s.regs[0] = 0#16
  /-- The configuration is legal (R123). -/
  legal : legalConfig s.config = true
  /-- The rows are as R126 says. -/
  caches : CachesWf s.config s.rows1 s.rows2
  /-- The events are as R138 says. -/
  events : ∀ e ∈ s.events, EventWf s.config e

/-! ### What a step leaves unchanged -/

/-- Every word of memory reads as before. -/
def SameMem (s t : State) : Prop := ∀ a : MemIndex, t.memRead a = s.memRead a

/-- Every register reads as before. -/
def SameRegs (s t : State) : Prop := ∀ r : RegIdx, t.reg r = s.reg r

/-- The parameters of the run are as before. -/
def SameParams (s t : State) : Prop := t.config = s.config ∧ t.strictDecode = s.strictDecode

/-- The cache rows and the event stream are as before. -/
def SameTrace (s t : State) : Prop :=
  t.rows1 = s.rows1 ∧ t.rows2 = s.rows2 ∧ t.events = s.events

/-- `t` is `s` after an instruction that only computes the value `v` for register `d`: the write is
discarded for register 0 (R12), the program counter advances, all else is kept. -/
structure WroteReg (s t : State) (d : RegIdx) (v : Word) : Prop where
  dst : t.reg d = if d = 0#3 then 0#16 else v
  others : ∀ r, r ≠ d → t.reg r = s.reg r
  pc : t.pc = s.pc + 1#16
  mem : SameMem s t
  halted : t.halted = s.halted
  params : SameParams s t
  trace : SameTrace s t

/-- `t` is `s` with the program counter at `target`, all else kept. -/
structure WentTo (s t : State) (target : Word) : Prop where
  pc : t.pc = target
  regs : SameRegs s t
  mem : SameMem s t
  halted : t.halted = s.halted
  params : SameParams s t
  trace : SameTrace s t

/-! ### The registers of an instruction (R13) -/

/-- The register an instruction names as its destination. -/
def destReg : Instr → Option RegIdx
  | .add _ _ d => some d
  | .sub _ _ d => some d
  | .or _ _ d => some d
  | .and _ _ d => some d
  | .slt _ _ d => some d
  | .jr _ _ _ => none
  | .addi _ d _ => some d
  | .j _ => none
  | .jal _ => some Config.linkReg
  | .lw _ d _ => some d
  | .sw _ _ _ => none
  | .jeq _ _ _ => none
  | .slti _ d _ => some d
  | .rsvdF5 _ _ _ => none
  | .rsvdF6_7 _ _ _ _ => none
  | .rsvdF9 _ _ _ => none
  | .rsvdF10_11 _ _ _ _ => none
  | .rsvdF12_15 _ _ _ _ => none

/-- The registers an instruction reads. -/
def sourceRegs : Instr → List RegIdx
  | .add a b _ => [a, b]
  | .sub a b _ => [a, b]
  | .or a b _ => [a, b]
  | .and a b _ => [a, b]
  | .slt a b _ => [a, b]
  | .jr a _ _ => [a]
  | .addi a _ _ => [a]
  | .j _ => []
  | .jal _ => []
  | .lw a _ _ => [a]
  | .sw a d _ => [a, d]
  | .jeq a d _ => [a, d]
  | .slti a _ _ => [a]
  | .rsvdF5 _ _ _ => []
  | .rsvdF6_7 _ _ _ _ => []
  | .rsvdF9 _ _ _ => []
  | .rsvdF10_11 _ _ _ _ => []
  | .rsvdF12_15 _ _ _ _ => []

/-- The instruction is one of the five reserved class-R rows (R57). -/
def isReserved : Instr → Bool
  | .add _ _ _ => false
  | .sub _ _ _ => false
  | .or _ _ _ => false
  | .and _ _ _ => false
  | .slt _ _ _ => false
  | .jr _ _ _ => false
  | .addi _ _ _ => false
  | .j _ => false
  | .jal _ => false
  | .lw _ _ _ => false
  | .sw _ _ _ => false
  | .jeq _ _ _ => false
  | .slti _ _ _ => false
  | .rsvdF5 _ _ _ => true
  | .rsvdF6_7 _ _ _ _ => true
  | .rsvdF9 _ _ _ => true
  | .rsvdF10_11 _ _ _ _ => true
  | .rsvdF12_15 _ _ _ _ => true

/-! ### What a program can see -/

/-- Two states agree on everything a program can see, and on the decode mode: registers, program
counter, halted flag and memory (R29, R45). They may differ in the cache configuration, the
rows and the events. -/
structure SameProgramView (s t : State) : Prop where
  regs : ∀ r, t.reg r = s.reg r
  pc : t.pc = s.pc
  halted : t.halted = s.halted
  mem : ∀ a : MemIndex, t.memRead a = s.memRead a
  strict : t.strictDecode = s.strictDecode

/-! ### How many events an access emits (R140) -/

/-- A store emits one event per configured cache. -/
def storeEventCount : CacheConfig → Nat
  | .none => 0
  | .one _ => 1
  | .two _ _ => 2

/-- A load emits none without a cache, one with one cache, and with two caches one when L1 holds its
tag and two when it does not. -/
def loadEventCount (s : State) (a : MemIndex) : Nat :=
  match s.config with
  | .none => 0
  | .one _ => 1
  | .two g1 _ => if isCached g1 s.rows1 a then 1 else 2

/-! ### Sequences of cache accesses (R141) -/

/-- A load or a store as the cache model sees it. -/
structure CacheOp where
  store : Bool
  address : MemIndex
  pc : Word
  deriving DecidableEq, Repr

/-- The cache access of one load or store. -/
def State.cacheOp (s : State) (o : CacheOp) : State :=
  if o.store then s.cacheWrite o.address o.pc else s.cacheRead o.address o.pc

/-- The cache accesses of a sequence of loads and stores, in order. -/
def State.cacheOps (s : State) : List CacheOp → State
  | [] => s
  | o :: rest => (s.cacheOp o).cacheOps rest

/-- All an event says but its program counter. -/
def Event.withoutPc (e : Event) : CacheName × AccessKind × MemIndex × Nat :=
  (e.cacheName, e.kind, e.address, e.row)

end Sys2Proof.Machine
end

