-- ==== Sys2Proof/Certificates/Slice0/Obligations.lean ====
section
/-! DEFINITION. The statements for the provers. Each docstring names the rule of spec/ it formalises, and
says where a clause is a decision of the spec or a choice of the model. -/

open Sys2Proof Sys2Proof.Machine

/-! ### Reset and the host's transactions -/

/-- 10_state.md section 8 (R28), whose values of registers, pc, halted flag, memory and
configuration are decisions D2 to D5 and D20 of the spec: what reset leaves, from every state. That
`State.reset` has no cache and the lenient mode is the model's choice (notes/assumptions/4.md). -/
def Obligations.ResetLeavesTheGivenValues : Prop :=
  (∀ s : State,
    (∀ r, s.hostReset.reg r = 0#16) ∧ s.hostReset.pc = 0#16 ∧ s.hostReset.halted = false ∧
    (∀ a, s.hostReset.memRead a = 0#16) ∧ SameParams s s.hostReset ∧
    s.hostReset.rows1 = emptyRows1 s.config ∧ s.hostReset.rows2 = emptyRows2 s.config ∧
    (∀ row ∈ s.hostReset.rows1, row = []) ∧ (∀ row ∈ s.hostReset.rows2, row = []) ∧
    s.hostReset.events = []) ∧
  State.reset.hostReset = State.reset ∧ State.reset.config = .none ∧
  State.reset.strictDecode = false

/-- `Inv` holds of `State.reset` and of the host's reset under every legal configuration
(10_state.md R28, 45_cache_model.md R126, R138). The model's own choices in it, and not the spec's:
the canonical form of memory (notes/assumptions/1.md), the zero in the slot behind register 0
(12.md), no rows for a cache that is not configured (9.md), and, in `State.reset`, that no cache is
configured (4.md). The reset values of R28 are the spec's decisions (2.md, 3.md). -/
def Obligations.ResetSatisfiesInvariant : Prop :=
  Inv State.reset ∧ ∀ s : State, legalConfig s.config = true → Inv s.hostReset

/-- Configuring, then resetting, then loading an image, the transactions of 70_reset_and_hazards.md
section 1, keep `Inv`. What they keep is in part the model's own choice: the canonical form of
memory (notes/assumptions/1.md), the zero in the slot behind register 0 (12.md) and no rows for a
cache that is not configured (9.md). -/
def Obligations.HostTransactionsKeepInvariant : Prop :=
  (∀ (s t : State) (c : CacheConfig) (strict : Bool),
    s.configure c strict = .next t → Inv t.hostReset) ∧
  ∀ (s t : State) (image : List Word), Inv s → s.loadImage image = .next t → Inv t

/-- 10_state.md section 7 (R24, decisions D4 and D22): the image is placed from index 0 upward, all
else is kept, and an image longer than memory is refused. -/
def Obligations.ImageLoadPlacesTheImage : Prop :=
  (∀ (s : State) (image : List Word), image.length ≤ 8192 →
    ∃ t, s.loadImage image = .next t ∧
      (∀ a : MemIndex, t.memRead a = (image[a.toNat]?).getD (s.memRead a)) ∧
      SameRegs s t ∧ t.pc = s.pc ∧ t.halted = s.halted ∧ SameParams s t ∧ SameTrace s t) ∧
  ∀ (s : State) (image : List Word), 8192 < image.length →
    s.loadImage image = .refused .imageTooLong

/-- 10_state.md section 7 (R27): the state read access shows pc, the eight registers, the 8192 words
of memory and the halted flag. -/
def Obligations.SnapshotShowsTheState : Prop :=
  ∀ s : State, s.snapshot.pc = s.pc ∧ s.snapshot.halted = s.halted ∧
    s.snapshot.x.length = 8 ∧ (∀ r : RegIdx, s.snapshot.x[r.toNat]? = some (s.reg r)) ∧
    s.snapshot.mem.length = 8192 ∧
    ∀ a : MemIndex, s.snapshot.mem[a.toNat]? = some (s.memRead a)

/-- 45_cache_model.md section 2 (R121 to R123): which geometries are legal, what the row count is,
that a configuration is legal when each configured cache's geometry is, that an illegal one is
refused and gets no step, and that a legal one is taken, its rows empty (10_state.md R19, R20), with
the spec's examples. The refusal, and that the row count must be at least 1, are decision D18 of
the spec (notes/assumptions/8.md). The model's choice: the decode mode is set here too (5.md), and a
cache that is not configured has no rows (9.md). -/
def Obligations.IllegalConfigurationsAreRefused : Prop :=
  (∀ g : Geometry, legalGeometry g = true ↔
    (g.assoc ∈ [1, 2, 4, 8, 16] ∧ g.block ∈ [1, 2, 4, 8, 16, 32, 64] ∧
      g.assoc * g.block ∣ g.capacity ∧ 1 ≤ g.capacity / (g.assoc * g.block))) ∧
  (∀ g : Geometry, legalGeometry g = true →
    rowCount g = g.capacity / (g.assoc * g.block) ∧
    rowCount g * (g.assoc * g.block) = g.capacity ∧
    rowCount g * g.assoc = g.capacity / g.block) ∧
  legalConfig .none = true ∧ (∀ g : Geometry, legalConfig (.one g) = legalGeometry g) ∧
  (∀ g1 g2 : Geometry, legalConfig (.two g1 g2) = (legalGeometry g1 && legalGeometry g2)) ∧
  (∀ (s : State) (c : CacheConfig) (strict : Bool), legalConfig c = true →
    ∃ t, s.configure c strict = .next t ∧ t.config = c ∧ t.strictDecode = strict ∧
      t.rows1 = emptyRows1 c ∧ t.rows2 = emptyRows2 c ∧ SameRegs s t ∧ SameMem s t ∧
      t.pc = s.pc ∧ t.halted = s.halted ∧ t.events = s.events) ∧
  emptyRows1 .none = [] ∧ emptyRows2 .none = [] ∧
  (∀ g : Geometry, emptyRows1 (.one g) = List.replicate (rowCount g) [] ∧
    emptyRows2 (.one g) = []) ∧
  (∀ g1 g2 : Geometry, emptyRows1 (.two g1 g2) = List.replicate (rowCount g1) [] ∧
    emptyRows2 (.two g1 g2) = List.replicate (rowCount g2) []) ∧
  (∀ (s : State) (c : CacheConfig) (strict : Bool), legalConfig c = false →
    s.configure c strict = .refused .illegalConfiguration) ∧
  (∀ s : State, legalConfig s.config = false → step s = .refused .illegalConfiguration) ∧
  legalGeometry ⟨6, 2, 2⟩ = false ∧ legalGeometry ⟨2, 2, 2⟩ = false ∧
  legalGeometry ⟨8, 3, 1⟩ = false ∧ legalGeometry ⟨24, 1, 3⟩ = false ∧
  legalGeometry ⟨8, 2, 2⟩ = true ∧ legalGeometry ⟨4, 2, 2⟩ = true ∧
  legalGeometry ⟨8, 2, 1⟩ = true ∧ legalGeometry ⟨24, 1, 4⟩ = true

/-! ### Invariant of the machine -/

/-- Every step keeps `Inv`. From the spec: the configuration stays legal (45_cache_model.md R123), the
rows stay as R125 and R126 say, the events as R138 says. The model's own choices: the canonical
form of memory (notes/assumptions/1.md), the zero in the slot behind register 0, of which R11 says
nothing (12.md), and no rows for a cache that is not configured (9.md). -/
def Obligations.StepKeepsInvariant : Prop :=
  ∀ s t : State, Inv s → step s = .next t → Inv t

/-! ### Registers and memory -/

/-- R12: a write of registers 1 to 7 stores the value, a write of register 0 does not happen and the
rest of the instruction is carried out unchanged, for every instruction that names a
destination. -/
def Obligations.RegisterWriteAndDiscard : Prop :=
  (∀ (s : State) (v : Word), s.writeReg 0#3 v = s ∧ s.reg 0#3 = 0#16) ∧
  (∀ (s : State) (i : RegIdx) (v : Word), i ≠ 0#3 →
    (s.writeReg i v).reg i = v ∧ (∀ r, r ≠ i → (s.writeReg i v).reg r = s.reg r) ∧
    (s.writeReg i v).pc = s.pc ∧ SameMem s (s.writeReg i v) ∧
    (s.writeReg i v).halted = s.halted ∧ SameParams s (s.writeReg i v) ∧
    SameTrace s (s.writeReg i v)) ∧
  (∀ (i : Instr) (s : State), destReg i = some 0#3 →
    ∃ t, exec i s = .next t ∧ SameRegs s t ∧ SameMem s t ∧ t.pc = s.pc + 1#16 ∧
      t.halted = s.halted ∧ SameParams s t) ∧
  ∀ (src : RegIdx) (imm7 : Imm7) (s : State),
    ∃ t, exec (.lw src 0#3 imm7) s = .next t ∧
      SameTrace (s.cacheRead (effectiveAddress s src imm7) s.pc) t

/-- 10_state.md section 2 (R13): no instruction changes a register but its destination, and nothing
but the registers an instruction reads can influence what it does. -/
def Obligations.InstructionsUseOnlyTheirRegisters : Prop :=
  (∀ (i : Instr) (s t : State), exec i s = .next t →
    ∀ r, destReg i ≠ some r → t.reg r = s.reg r) ∧
  ∀ (i : Instr) (s s' t t' : State), s' = s.setRegs s'.regs →
    (∀ r ∈ sourceRegs i, s'.reg r = s.reg r) → exec i s = .next t → exec i s' = .next t' →
    t' = t.setRegs t'.regs ∧ ∀ d, destReg i = some d → t'.reg d = t.reg d

/-- R31: every address is masked to its low 13 bits before it indexes memory: by the fetch, the load
and the store. -/
def Obligations.AddressesAreMasked : Prop :=
  (∀ a : Word, (maskAddr a).toNat = a.toNat % 8192 ∧
    (maskAddr a).toNat = (a &&& 0x1FFF#16).toNat) ∧
  (∀ a b : Word, maskAddr a = maskAddr b ↔ a.toNat % 8192 = b.toNat % 8192) ∧
  (∀ s : State, s.fetch = s.mem.read (s.pc.toNat % 8192)) ∧
  (∀ (s : State) (src dst : RegIdx) (imm7 : Imm7), dst ≠ 0#3 →
    ∃ t, exec (.lw src dst imm7) s = .next t ∧
      t.reg dst = s.mem.read ((s.reg src + sext16 imm7).toNat % 8192)) ∧
  ∀ (s : State) (src dst : RegIdx) (imm7 : Imm7),
    ∃ t, exec (.sw src dst imm7) s = .next t ∧
      t.mem.read ((s.reg src + sext16 imm7).toNat % 8192) = s.reg dst

/-- R34: a store sets the one word and no other, and the next fetch or load of that index returns
it. -/
def Obligations.MemoryWriteSetsOneWord : Prop :=
  (∀ (s : State) (a : Word) (v : Word),
    (s.memWrite (maskAddr a) v).memRead (maskAddr a) = v ∧
    (∀ b : MemIndex, b ≠ maskAddr a → (s.memWrite (maskAddr a) v).memRead b = s.memRead b) ∧
    SameRegs s (s.memWrite (maskAddr a) v) ∧ (s.memWrite (maskAddr a) v).pc = s.pc ∧
    (s.memWrite (maskAddr a) v).halted = s.halted ∧ SameParams s (s.memWrite (maskAddr a) v) ∧
    SameTrace s (s.memWrite (maskAddr a) v)) ∧
  ∀ (s t : State) (src dst : RegIdx) (imm7 : Imm7), exec (.sw src dst imm7) s = .next t →
    t.memRead (effectiveAddress s src imm7) = s.reg dst ∧
    ∀ p : Word, maskAddr p = effectiveAddress s src imm7 → (t.setPc p).fetch = s.reg dst

/-- The model's form of memory (notes/assumptions/1.md): two canonical memories that read alike are
equal as data. -/
def Obligations.CanonicalMemoriesReadingAlikeAreEqual : Prop :=
  ∀ m m' : Memory, m.wf → m'.wf → (∀ k, m.read k = m'.read k) → m = m'

/-- 20_memory.md section 1 (R32): a step changes no word of memory but the one word a `sw`
stores. -/
def Obligations.OnlyStoresChangeMemory : Prop :=
  ∀ (s t : State) (a : MemIndex), step s = .next t → t.memRead a ≠ s.memRead a →
    ∃ src dst imm7, decode s.fetch = .sw src dst imm7 ∧ a = effectiveAddress s src imm7 ∧
      t.memRead a = s.reg dst

/-! ### Encoding -/

/-- 30_encoding.md sections 2 and 4: decoding the word of a well-formed instruction gives the
instruction, with every operand at every value. -/
def Obligations.DecodeOfEncode : Prop :=
  ∀ i : Instr, i.wf = true → decode (encode i) = i

/-- Every word is the word of the well-formed instruction it decodes to: no bit is dropped. -/
def Obligations.EncodeOfDecode : Prop :=
  ∀ w : Word, (decode w).wf = true ∧ encode (decode w) = w

/-- 30_encoding.md sections 4 and 5 (R56, R57): the rows of the opcode map a word belongs to are exactly
one, the row of the instruction it decodes to. -/
def Obligations.EveryWordMatchesExactlyItsRow : Prop :=
  ∀ w : Word, opcodeTable.filter (rowMatches w) = [(decode w).row]

/-- 95_test_vectors.md VD1 to VD10: words and the instructions they stand for. -/
def Obligations.SampleWordsDecode : Prop :=
  decode 0x0530#16 = .add 1#3 2#3 3#3 ∧ decode 0xE57F#16 = .slti 1#3 2#3 0x7F#7 ∧
  decode 0x4003#16 = .j 3#13 ∧ decode 0x7FFF#16 = .jal 8191#13 ∧
  decode 0x06E8#16 = .jr 1#3 5#3 6#3 ∧ decode 0x1FF5#16 = .rsvdF5 7#3 7#3 7#3 ∧
  decode 0x0000#16 = .add 0#3 0#3 0#3 ∧ decode 0xFFFF#16 = .slti 7#3 7#3 0x7F#7 ∧
  decode 0xA194#16 = .sw 0#3 3#3 20#7 ∧ decode 0xC07F#16 = .jeq 0#3 0#3 0x7F#7

/-- R54: the signed use of imm7: the extension, its range, and that adding it modulo 65536 is adding
the signed number, in `addi`, in the effective address of `lw` and `sw` and in the target of
`jeq`. -/
def Obligations.SignedUseOfImm7 : Prop :=
  (∀ f : Imm7, sext16 f = (if f.getLsbD 6 then f.setWidth 16 ||| 0xFF80#16 else f.setWidth 16) ∧
    (sext16 f).toInt = f.toInt ∧ -64 ≤ f.toInt ∧ f.toInt ≤ 63) ∧
  (∀ (x : Word) (f : Imm7), ((x + sext16 f).toNat : Int) = ((x.toNat : Int) + f.toInt) % 65536) ∧
  sext16 0x7F#7 = 0xFFFF#16 ∧ sext16 0x40#7 = 0xFFC0#16 ∧ sext16 0x3F#7 = 0x003F#16 ∧
  (∀ (s : State) (src dst : RegIdx) (f : Imm7), dst ≠ 0#3 →
    ∃ t, exec (.addi src dst f) s = .next t ∧
      ((t.reg dst).toNat : Int) = (((s.reg src).toNat : Int) + f.toInt) % 65536) ∧
  (∀ (s : State) (src : RegIdx) (f : Imm7), ((effectiveAddress s src f).toNat : Int) =
    (((s.reg src).toNat : Int) + f.toInt) % 8192) ∧
  ∀ (s : State) (src dst : RegIdx) (f : Imm7), s.reg src = s.reg dst →
    ∃ t, exec (.jeq src dst f) s = .next t ∧
      (t.pc.toNat : Int) = ((s.pc.toNat : Int) + 1 + f.toInt) % 65536

/-- 30_encoding.md section 3 (R55, decision D11): `slti` zero-extends imm7, `j` and `jal` use imm13 as
an unsigned absolute address. -/
def Obligations.UnsignedUseOfImmediates : Prop :=
  (∀ f : Imm7, (zext16 f).toNat = f.toNat) ∧ (∀ f : Imm13, (jumpTarget f).toNat = f.toNat) ∧
  (∀ (s : State) (src dst : RegIdx), dst ≠ 0#3 →
    ∃ t u, exec (.slti src dst 0x7F#7) s = .next t ∧ exec (.addi src dst 0x7F#7) s = .next u ∧
      t.reg dst = (if (s.reg src).toNat < 127 then 1#16 else 0#16) ∧
      u.reg dst = s.reg src - 1#16) ∧
  ∀ (s : State) (f : Imm13), ∃ t u, exec (.j f) s = .next t ∧ exec (.jal f) s = .next u ∧
    t.pc.toNat = f.toNat ∧ u.pc.toNat = f.toNat

/-! ### What each instruction does

Each statement has two clauses: the words that decode to the instruction, and the next state the
instruction answers from every state, with its frame. That the program counter wraps at 0xFFFF is
decision D6 of the spec. -/

/-- 41_alu_register.md R85; the function code is decision D9, the sum general knowledge G6. -/
def Obligations.AddWritesTheSum : Prop :=
  (∀ w : Word, w.extractLsb' 13 3 = 0#3 → w.extractLsb' 0 4 = 0#4 →
    decode w = .add (w.extractLsb' 10 3) (w.extractLsb' 7 3) (w.extractLsb' 4 3)) ∧
  ∀ (srcA srcB dst : RegIdx) (s : State), ∃ t, exec (.add srcA srcB dst) s = .next t ∧
    WroteReg s t dst (s.reg srcA + s.reg srcB)

/-- 41_alu_register.md R86; the operand order is decision D8, the function code D9. -/
def Obligations.SubWritesTheDifference : Prop :=
  (∀ w : Word, w.extractLsb' 13 3 = 0#3 → w.extractLsb' 0 4 = 1#4 →
    decode w = .sub (w.extractLsb' 10 3) (w.extractLsb' 7 3) (w.extractLsb' 4 3)) ∧
  ∀ (srcA srcB dst : RegIdx) (s : State), ∃ t, exec (.sub srcA srcB dst) s = .next t ∧
    WroteReg s t dst (s.reg srcA - s.reg srcB)

/-- 41_alu_register.md R87; the function code is decision D9, the inclusive or general knowledge
G6. -/
def Obligations.OrWritesTheDisjunction : Prop :=
  (∀ w : Word, w.extractLsb' 13 3 = 0#3 → w.extractLsb' 0 4 = 2#4 →
    decode w = .or (w.extractLsb' 10 3) (w.extractLsb' 7 3) (w.extractLsb' 4 3)) ∧
  ∀ (srcA srcB dst : RegIdx) (s : State), ∃ t, exec (.or srcA srcB dst) s = .next t ∧
    WroteReg s t dst (s.reg srcA ||| s.reg srcB)

/-- 41_alu_register.md R88; the function code is decision D9, the bitwise and general knowledge
G6. -/
def Obligations.AndWritesTheConjunction : Prop :=
  (∀ w : Word, w.extractLsb' 13 3 = 0#3 → w.extractLsb' 0 4 = 3#4 →
    decode w = .and (w.extractLsb' 10 3) (w.extractLsb' 7 3) (w.extractLsb' 4 3)) ∧
  ∀ (srcA srcB dst : RegIdx) (s : State), ∃ t, exec (.and srcA srcB dst) s = .next t ∧
    WroteReg s t dst (s.reg srcA &&& s.reg srcB)

/-- 41_alu_register.md R89: the unsigned comparison; the function code is decision D9. -/
def Obligations.SltWritesTheUnsignedComparison : Prop :=
  (∀ w : Word, w.extractLsb' 13 3 = 0#3 → w.extractLsb' 0 4 = 4#4 →
    decode w = .slt (w.extractLsb' 10 3) (w.extractLsb' 7 3) (w.extractLsb' 4 3)) ∧
  ∀ (srcA srcB dst : RegIdx) (s : State), ∃ t, exec (.slt srcA srcB dst) s = .next t ∧
    WroteReg s t dst (if (s.reg srcA).toNat < (s.reg srcB).toNat then 1#16 else 0#16)

/-- R95. -/
def Obligations.AddiWritesTheSum : Prop :=
  (∀ w : Word, w.extractLsb' 13 3 = 1#3 →
    decode w = .addi (w.extractLsb' 10 3) (w.extractLsb' 7 3) (w.extractLsb' 0 7)) ∧
  ∀ (src dst : RegIdx) (imm7 : Imm7) (s : State), ∃ t, exec (.addi src dst imm7) s = .next t ∧
    WroteReg s t dst (s.reg src + imm7.signExtend 16)

/-- 42_alu_immediate.md R96: zero-extended immediate; that the register side is unsigned is decision
D12. -/
def Obligations.SltiWritesTheUnsignedComparison : Prop :=
  (∀ w : Word, w.extractLsb' 13 3 = 7#3 →
    decode w = .slti (w.extractLsb' 10 3) (w.extractLsb' 7 3) (w.extractLsb' 0 7)) ∧
  ∀ (src dst : RegIdx) (imm7 : Imm7) (s : State), ∃ t, exec (.slti src dst imm7) s = .next t ∧
    WroteReg s t dst (if (s.reg src).toNat < imm7.toNat then 1#16 else 0#16)

/-- R100: the effective address, that the base register is not modified, and that the address of the
events is the masked one. -/
def Obligations.EffectiveAddressRule : Prop :=
  (∀ (s : State) (src : RegIdx) (imm7 : Imm7), effectiveAddress s src imm7 =
      ((s.reg src + imm7.signExtend 16) &&& 0x1FFF#16).setWidth 13 ∧
    ((effectiveAddress s src imm7).toNat : Int) =
      (((s.reg src).toNat : Int) + imm7.toInt) % 8192) ∧
  (∀ (s t : State) (src dst : RegIdx) (imm7 : Imm7), exec (.sw src dst imm7) s = .next t →
    t.reg src = s.reg src ∧
    ∀ e ∈ t.events, e ∈ s.events ∨ e.address = effectiveAddress s src imm7) ∧
  ∀ (s t : State) (src dst : RegIdx) (imm7 : Imm7), exec (.lw src dst imm7) s = .next t →
    (src ≠ dst → t.reg src = s.reg src) ∧
    ∀ e ∈ t.events, e ∈ s.events ∨ e.address = effectiveAddress s src imm7

/-- R101: the loaded register, then one CacheRead of the masked address with the pc of the `lw`, made
even when dst is 0; nothing in the caches when none is configured. -/
def Obligations.LwLoadsTheWord : Prop :=
  (∀ w : Word, w.extractLsb' 13 3 = 4#3 →
    decode w = .lw (w.extractLsb' 10 3) (w.extractLsb' 7 3) (w.extractLsb' 0 7)) ∧
  ∀ (src dst : RegIdx) (imm7 : Imm7) (s : State), ∃ t, exec (.lw src dst imm7) s = .next t ∧
    t.reg dst = (if dst = 0#3 then 0#16 else s.memRead (effectiveAddress s src imm7)) ∧
    (∀ r, r ≠ dst → t.reg r = s.reg r) ∧ t.pc = s.pc + 1#16 ∧ SameMem s t ∧
    t.halted = s.halted ∧ SameParams s t ∧
    SameTrace (s.cacheRead (effectiveAddress s src imm7) s.pc) t ∧
    (s.config = .none → SameTrace s t)

/-- R102: the stored word, then one CacheWrite of the masked address with the pc of the `sw`, which emits
one event per configured cache. -/
def Obligations.SwStoresTheRegister : Prop :=
  (∀ w : Word, w.extractLsb' 13 3 = 5#3 →
    decode w = .sw (w.extractLsb' 10 3) (w.extractLsb' 7 3) (w.extractLsb' 0 7)) ∧
  ∀ (src dst : RegIdx) (imm7 : Imm7) (s : State), ∃ t, exec (.sw src dst imm7) s = .next t ∧
    t.memRead (effectiveAddress s src imm7) = s.reg dst ∧
    (∀ a : MemIndex, a ≠ effectiveAddress s src imm7 → t.memRead a = s.memRead a) ∧
    SameRegs s t ∧ t.pc = s.pc + 1#16 ∧ t.halted = s.halted ∧ SameParams s t ∧
    SameTrace (s.cacheWrite (effectiveAddress s src imm7) s.pc) t ∧
    (∃ es, t.events = s.events ++ es ∧ es.length = storeEventCount s.config ∧
      ∀ e ∈ es, e.kind = .sw) ∧
    (s.config = .none → SameTrace s t)

/-- 44_control_transfer.md R110; that all 16 bits of the pc are compared is decision D7. -/
def Obligations.JJumpsAndHaltsOnItself : Prop :=
  (∀ w : Word, w.extractLsb' 13 3 = 2#3 → decode w = .j (w.extractLsb' 0 13)) ∧
  ∀ (imm13 : Imm13) (s : State), ∃ t, exec (.j imm13) s = .next t ∧
    t.pc = imm13.setWidth 16 ∧
    (t.halted = true ↔ s.halted = true ∨ imm13.toNat = s.pc.toNat) ∧
    SameRegs s t ∧ SameMem s t ∧ SameParams s t ∧ SameTrace s t

/-- R111: the full 16-bit link value in register 7, the jump, and no halt. -/
def Obligations.JalLinksAndJumps : Prop :=
  (∀ w : Word, w.extractLsb' 13 3 = 3#3 → decode w = .jal (w.extractLsb' 0 13)) ∧
  ∀ (imm13 : Imm13) (s : State), ∃ t, exec (.jal imm13) s = .next t ∧
    t.reg 7#3 = s.pc + 1#16 ∧ (∀ r, r ≠ 7#3 → t.reg r = s.reg r) ∧
    t.pc = imm13.setWidth 16 ∧ t.halted = s.halted ∧ SameMem s t ∧ SameParams s t ∧ SameTrace s t

/-- R112: the whole register becomes the pc, whatever bits 9 to 4 of the word are. -/
def Obligations.JrJumpsToTheRegister : Prop :=
  (∀ w : Word, w.extractLsb' 13 3 = 0#3 → w.extractLsb' 0 4 = 8#4 →
    decode w = .jr (w.extractLsb' 10 3) (w.extractLsb' 7 3) (w.extractLsb' 4 3)) ∧
  ∀ (srcA srcB dst : RegIdx) (s : State), ∃ t, exec (.jr srcA srcB dst) s = .next t ∧
    WentTo s t (s.reg srcA)

/-- R113. -/
def Obligations.JeqBranchesOnEquality : Prop :=
  (∀ w : Word, w.extractLsb' 13 3 = 6#3 →
    decode w = .jeq (w.extractLsb' 10 3) (w.extractLsb' 7 3) (w.extractLsb' 0 7)) ∧
  ∀ (src dst : RegIdx) (imm7 : Imm7) (s : State), ∃ t, exec (.jeq src dst imm7) s = .next t ∧
    WentTo s t (if s.reg src = s.reg dst then s.pc + 1#16 + imm7.signExtend 16 else s.pc + 1#16)

/-- 40_execution_step.md section 2 (R76) and 30_encoding.md section 5 (R57): the ten reserved function
codes are no-ops in the default mode. That strict mode ends the run with IllegalInstruction is
decision D13 of the spec (notes/assumptions/5.md). -/
def Obligations.ReservedWordsAreNoOps : Prop :=
  (∀ w : Word, isReserved (decode w) = true ↔
    (w.extractLsb' 13 3 = 0#3 ∧ (w.extractLsb' 0 4).toNat ∈ [5, 6, 7, 9, 10, 11, 12, 13, 14, 15])) ∧
  (∀ (srcA srcB dst : RegIdx) (func : Func) (s : State), s.strictDecode = false →
    ∃ t, WentTo s t (s.pc + 1#16) ∧ exec (.rsvdF5 srcA srcB dst) s = .next t ∧
      exec (.rsvdF6_7 srcA srcB dst func) s = .next t ∧ exec (.rsvdF9 srcA srcB dst) s = .next t ∧
      exec (.rsvdF10_11 srcA srcB dst func) s = .next t ∧
      exec (.rsvdF12_15 srcA srcB dst func) s = .next t) ∧
  ∀ (i : Instr) (s : State), isReserved i = true → s.strictDecode = true →
    exec i s = .fault .illegalInstruction

/-! ### The step -/

/-- 40_execution_step.md sections 1 and 4: a step in the ready state fetches the word at the masked pc
and carries out the instruction it decodes to; nothing else is done around it. -/
def Obligations.StepRunsTheDecodedInstruction : Prop :=
  ∀ s : State, legalConfig s.config = true → s.halted = false →
    step s = exec (decode (s.memRead (maskAddr s.pc))) s ∧
    ∀ i : Instr, i.wf = true → s.memRead (maskAddr s.pc) = encode i → step s = exec i s

/-- An instruction placed at the program counter runs as the next instruction; placing it changes that
word, clears the halted flag and leaves all else. `withFetchWord` is the model's own choice
(notes/assumptions/6.md). -/
def Obligations.PlacedInstructionRunsNext : Prop :=
  ∀ (s : State) (i : Instr), legalConfig s.config = true → i.wf = true →
    step (s.withFetchWord 16 (encode i).toNat) = exec i (s.withFetchWord 16 (encode i).toNat) ∧
    (∀ a : MemIndex, a ≠ maskAddr s.pc →
      (s.withFetchWord 16 (encode i).toNat).memRead a = s.memRead a) ∧
    SameRegs s (s.withFetchWord 16 (encode i).toNat) ∧
    (s.withFetchWord 16 (encode i).toNat).pc = s.pc ∧
    (s.withFetchWord 16 (encode i).toNat).memRead (maskAddr s.pc) = encode i ∧
    (s.withFetchWord 16 (encode i).toNat).halted = false ∧
    SameParams s (s.withFetchWord 16 (encode i).toNat) ∧
    SameTrace s (s.withFetchWord 16 (encode i).toNat)

/-- 40_execution_step.md section 4 (R79, decision D5): any number of step requests of a halted machine
change nothing. -/
def Obligations.HaltedMachineStaysAsItIs : Prop :=
  ∀ (k : Nat) (s : State), legalConfig s.config = true → s.halted = true →
    Host.Core.run core k s = .next s

/-- 44_control_transfer.md R114 and 40_execution_step.md R78: a step that sets the halted flag executed a
`j` whose target is its own pc, and the flag is never cleared. -/
def Obligations.OnlyASelfJumpHalts : Prop :=
  ∀ s t : State, step s = .next t →
    (s.halted = true → t.halted = true) ∧
    (s.halted = false → t.halted = true →
      ∃ imm13 : Imm13, decode s.fetch = .j imm13 ∧ imm13.setWidth 16 = s.pc ∧ t.pc = s.pc)

/-- 44_control_transfer.md R110 case (b), 90_conflicts.md C4, decision D7: a `j` to its own memory
address at a pc of 8192 or more halts one step later, in the state the halt would have left. -/
def Obligations.SelfJumpPastMemoryEndHaltsOneStepLater : Prop :=
  ∀ (s : State) (imm13 : Imm13), legalConfig s.config = true → s.halted = false →
    decode s.fetch = .j imm13 → 8192 ≤ s.pc.toNat → imm13 = maskAddr s.pc →
    ∃ t u, step s = .next t ∧ t.halted = false ∧ t.pc = imm13.setWidth 16 ∧
      step t = .next u ∧ u.halted = true ∧ u.pc = imm13.setWidth 16 ∧
      SameRegs s u ∧ SameMem s u ∧ SameParams s u ∧ SameTrace s u

/-- 60_exceptions.md sections 1 and 3 (R150): in the default mode, under a legal configuration, no run of
any length ends in a fault or a refusal. -/
def Obligations.LenientRunNeverStops : Prop :=
  ∀ (k : Nat) (s : State), legalConfig s.config = true → s.strictDecode = false →
    ∃ t, Host.Core.run core k s = .next t

/-- The stops of the machine: a step faults only on a reserved word in strict mode (60_exceptions.md
R158) and is refused only under an illegal configuration (45_cache_model.md R123). -/
def Obligations.EveryStopIsNamed : Prop :=
  (∀ (s : State) (f : Fault), step s = .fault f →
    f = .illegalInstruction ∧ s.strictDecode = true ∧ s.halted = false ∧
    isReserved (decode s.fetch) = true) ∧
  ∀ (s : State) (r : Refusal), step s = .refused r →
    r = .illegalConfiguration ∧ legalConfig s.config = false

/-- No step changes the cache configuration (10_state.md section 6, R19). That none changes the decode
mode either is the model's choice: STRICT_DECODE is a parameter of the run (00_scope.md R5, decision
D13) that the model holds in a field of `State` (notes/assumptions/5.md). -/
def Obligations.ParametersNeverChange : Prop :=
  ∀ (k : Nat) (s t : State), Host.Core.run core k s = .next t → SameParams s t

/-! ### The cache model -/

/-- 45_cache_model.md section 3 (R124, R125): row and tag identify the block, the row exists, the tag is at
most the largest, and with powers of two the decomposition is bit slicing. -/
def Obligations.RowAndTagIdentifyTheBlock : Prop :=
  ∀ g : Geometry, legalGeometry g = true → ∀ a : MemIndex,
    tagOf g a * rowCount g + rowOf g a = a.toNat / g.block ∧ rowOf g a < rowCount g ∧
    tagOf g a ≤ 8191 / g.block / rowCount g ∧
    (∀ b : MemIndex, (rowOf g a = rowOf g b ∧ tagOf g a = tagOf g b) ↔
      a.toNat / g.block = b.toNat / g.block) ∧
    ∀ o n : Nat, g.block = 2 ^ o → rowCount g = 2 ^ n →
      rowOf g a = (a.toNat >>> o) % 2 ^ n ∧ tagOf g a = a.toNat >>> (o + n)

/-- R128: touch moves a present tag to the back, appends an absent one, and evicts the front exactly when
an absent tag meets a full row; the order of the others and the invariants of R126 are kept. -/
def Obligations.TouchIsLeastRecentlyUsed : Prop :=
  ∀ (n : Nat) (row : Row) (tag : Nat), 1 ≤ n → row.Nodup → row.length ≤ n →
    (tag ∈ row → touch n row tag = row.filter (fun x => x ≠ tag) ++ [tag] ∧
      (touch n row tag).length = row.length) ∧
    (tag ∉ row → row.length = n → touch n row tag = row.tail ++ [tag]) ∧
    (tag ∉ row → row.length < n → touch n row tag = row ++ [tag]) ∧
    (touch n row tag).dropLast.Sublist row ∧ (touch n row tag).getLast? = some tag ∧
    (touch n row tag).Nodup ∧ (touch n row tag).length ≤ n

/-- R129: what a read access reports and leaves, and that a second read of the same block then hits. -/
def Obligations.ReadAccessRule : Prop :=
  ∀ (g : Geometry) (rows : Rows) (a : MemIndex), legalGeometry g = true → RowsWf g rows →
    ∃ row, rows[rowOf g a]? = some row ∧
      (readAccess g rows a).kind = (if tagOf g a ∈ row then .hit else .miss) ∧
      (readAccess g rows a).row = rowOf g a ∧
      (∀ k, (readAccess g rows a).rows[k]? =
        if k = rowOf g a then some (touch g.assoc row (tagOf g a)) else rows[k]?) ∧
      (tagOf g a ∈ row → (touch g.assoc row (tagOf g a)).length = row.length ∧
        ∀ x ∈ row, x ∈ touch g.assoc row (tagOf g a)) ∧
      ∀ b : MemIndex, a.toNat / g.block = b.toNat / g.block →
        (readAccess g (readAccess g rows a).rows b).kind = .hit

/-- 45_cache_model.md section 5 (R130, decisions D17 and D21): a store reports SW and allocates; a present
tag is moved and nothing is evicted even when the row is full. -/
def Obligations.WriteAccessRule : Prop :=
  ∀ (g : Geometry) (rows : Rows) (a : MemIndex), legalGeometry g = true → RowsWf g rows →
    ∃ row, rows[rowOf g a]? = some row ∧
      (writeAccess g rows a).kind = .sw ∧ (writeAccess g rows a).row = rowOf g a ∧
      (∀ k, (writeAccess g rows a).rows[k]? =
        if k = rowOf g a then some (touch g.assoc row (tagOf g a)) else rows[k]?) ∧
      (touch g.assoc row (tagOf g a)).getLast? = some (tagOf g a) ∧
      (tagOf g a ∈ row → ∀ x ∈ row, x ∈ touch g.assoc row (tagOf g a)) ∧
      ∀ b : MemIndex, a.toNat / g.block = b.toNat / g.block →
        (readAccess g (writeAccess g rows a).rows b).kind = .hit

/-- 45_cache_model.md section 6 (R136, decision D26): a load accesses L1, and L2 exactly on an L1 miss,
with the same address and pc; the rest of the state is kept. -/
def Obligations.LoadAccessesL2OnL1MissOnly : Prop :=
  ∀ (s : State) (a : MemIndex) (p : Word),
    SameRegs s (s.cacheRead a p) ∧ SameMem s (s.cacheRead a p) ∧ (s.cacheRead a p).pc = s.pc ∧
    (s.cacheRead a p).halted = s.halted ∧ SameParams s (s.cacheRead a p) ∧
    (s.config = .none → s.cacheRead a p = s) ∧
    (∀ g1, s.config = .one g1 →
      (s.cacheRead a p).rows1 = (readAccess g1 s.rows1 a).rows ∧
      (s.cacheRead a p).rows2 = s.rows2 ∧
      (s.cacheRead a p).events =
        s.events ++ [⟨.l1, (readAccess g1 s.rows1 a).kind, p, a, rowOf g1 a⟩]) ∧
    ∀ g1 g2, s.config = .two g1 g2 →
      (s.cacheRead a p).rows1 = (readAccess g1 s.rows1 a).rows ∧
      ((readAccess g1 s.rows1 a).kind = .hit →
        (s.cacheRead a p).rows2 = s.rows2 ∧
        (s.cacheRead a p).events = s.events ++ [⟨.l1, .hit, p, a, rowOf g1 a⟩]) ∧
      ((readAccess g1 s.rows1 a).kind = .miss →
        (s.cacheRead a p).rows2 = (readAccess g2 s.rows2 a).rows ∧
        (s.cacheRead a p).events = s.events ++ [⟨.l1, .miss, p, a, rowOf g1 a⟩,
          ⟨.l2, (readAccess g2 s.rows2 a).kind, p, a, rowOf g2 a⟩])

/-- 45_cache_model.md section 6 (R137, decision D26): a store accesses every configured cache and emits one
SW event for each. -/
def Obligations.StoreAccessesEveryCache : Prop :=
  ∀ (s : State) (a : MemIndex) (p : Word),
    SameRegs s (s.cacheWrite a p) ∧ SameMem s (s.cacheWrite a p) ∧
    (s.cacheWrite a p).pc = s.pc ∧
    (s.cacheWrite a p).halted = s.halted ∧ SameParams s (s.cacheWrite a p) ∧
    (s.config = .none → s.cacheWrite a p = s) ∧
    (∀ g1, s.config = .one g1 →
      (s.cacheWrite a p).rows1 = (writeAccess g1 s.rows1 a).rows ∧
      (s.cacheWrite a p).rows2 = s.rows2 ∧
      (s.cacheWrite a p).events = s.events ++ [⟨.l1, .sw, p, a, rowOf g1 a⟩]) ∧
    ∀ g1 g2, s.config = .two g1 g2 →
      (s.cacheWrite a p).rows1 = (writeAccess g1 s.rows1 a).rows ∧
      (s.cacheWrite a p).rows2 = (writeAccess g2 s.rows2 a).rows ∧
      (s.cacheWrite a p).events =
        s.events ++ [⟨.l1, .sw, p, a, rowOf g1 a⟩, ⟨.l2, .sw, p, a, rowOf g2 a⟩]

/-- 45_cache_model.md section 7 (R138 to R140, decisions D15 and D16): the events an instruction appends,
their number, order, kinds, pc and address. -/
def Obligations.EventsOfEachInstruction : Prop :=
  ∀ (i : Instr) (s t : State), exec i s = .next t →
    ∃ es, t.events = s.events ++ es ∧ (∀ e ∈ es, e.pc = s.pc) ∧
      es.map Event.cacheName <+: [.l1, .l2] ∧
      (es ≠ [] → (∃ src dst imm7, i = .lw src dst imm7) ∨ ∃ src dst imm7, i = .sw src dst imm7) ∧
      (∀ src dst imm7, i = .sw src dst imm7 →
        (∀ e ∈ es, e.kind = .sw ∧ e.address = effectiveAddress s src imm7) ∧
        es.length = storeEventCount s.config) ∧
      ∀ src dst imm7, i = .lw src dst imm7 →
        (∀ e ∈ es, e.kind ≠ .sw ∧ e.address = effectiveAddress s src imm7) ∧
        es.length = loadEventCount s (effectiveAddress s src imm7)

/-- R141: rows and events, but for the events' pc, are a function of the sequence of addresses and kinds;
with the same pcs the events are the same. -/
def Obligations.CacheStateIsAFunctionOfTheAccesses : Prop :=
  ∀ (s s' : State) (as bs : List CacheOp), s'.config = s.config → s'.rows1 = s.rows1 →
    s'.rows2 = s.rows2 → s'.events = s.events →
    as.map (fun o => (o.store, o.address)) = bs.map (fun o => (o.store, o.address)) →
    (s'.cacheOps bs).rows1 = (s.cacheOps as).rows1 ∧
    (s'.cacheOps bs).rows2 = (s.cacheOps as).rows2 ∧
    (s'.cacheOps bs).events.map Event.withoutPc = (s.cacheOps as).events.map Event.withoutPc ∧
    (as = bs → (s'.cacheOps bs).events = (s.cacheOps as).events)

/-- 45_cache_model.md section 8 (R142): L1's rows do not depend on L2, and L2's rows change only on a store
or on an L1 read miss. -/
def Obligations.CacheLevelsAreIndependent : Prop :=
  (∀ (s s' : State) (g1 g2 : Geometry) (ops : List CacheOp), s.config = .two g1 g2 →
    (s'.config = .one g1 ∨ ∃ g, s'.config = .two g1 g) → s'.rows1 = s.rows1 →
    (s'.cacheOps ops).rows1 = (s.cacheOps ops).rows1) ∧
  ∀ (s t : State), step s = .next t → t.rows2 ≠ s.rows2 →
    ∃ g1 g2, s.config = .two g1 g2 ∧
      ((∃ src dst imm7, decode s.fetch = .sw src dst imm7) ∨
        ∃ src dst imm7, decode s.fetch = .lw src dst imm7 ∧
          isCached g1 s.rows1 (effectiveAddress s src imm7) = false)

/-- R144: the document's test of LRU, and the case that tells it from first-in-first-out. -/
def Obligations.LruEvictsTheLeastRecentlyUsed : Prop :=
  ∀ A B C : Nat, A ≠ B → A ≠ C → B ≠ C →
    touch 2 [] A = [A] ∧ touch 2 [A] B = [A, B] ∧ touch 2 [A, B] C = [B, C] ∧
    touch 2 [A, B] B = [A, B] ∧ touch 2 [A, B] A = [B, A] ∧ touch 2 [B, A] C = [A, C]

/-- R45: two machines that agree on everything a program can see, under any two legal configurations,
agree on it after any number of steps, and stop alike. -/
def Obligations.CachesNeverChangeAProgram : Prop :=
  ∀ (k : Nat) (s s' : State), legalConfig s.config = true → legalConfig s'.config = true →
    SameProgramView s s' →
    (∀ t, Host.Core.run core k s = .next t →
      ∃ t', Host.Core.run core k s' = .next t' ∧ SameProgramView t t') ∧
    ∀ f, Host.Core.run core k s = .fault f → Host.Core.run core k s' = .fault f
end

