-- ==== Sys2Proof/Laws/Memory.lean ====
section
/-! SUPPORT. The laws of memory: a read after a write, and the canonical form kept by every operation
(20_memory.md R33, R34). -/

namespace Sys2Proof.Machine

open Sys2Proof

/-- Unlisting goes through the cells one by one. -/
theorem Memory.unlist_cons (i : Nat) (x : Word) (rest : Memory) (k : Nat) :
    Memory.unlist ((i, x) :: rest) k =
      if i = k then Memory.unlist rest k else (i, x) :: Memory.unlist rest k := by
  by_cases h : i = k <;> simp [Memory.unlist, h]

/-- After unlisting, the index reads as after reset and every other as before. -/
theorem Memory.read_unlist (m : Memory) (k j : Nat) :
    (m.unlist k).read j = if j = k then Config.memReset else m.read j := by
  induction m with
  | nil => simp [Memory.unlist, Memory.read]
  | cons c rest ih =>
    obtain ⟨i, x⟩ := c
    rw [Memory.unlist_cons]
    by_cases hik : i = k
    · subst hik
      by_cases hj : j = i
      · subst hj; simpa using ih
      · simp [Memory.read, ih, hj, Ne.symm hj]
    · by_cases hij : i = j
      · subst hij; simp [Memory.read, hik]
      · simp [Memory.read, ih, hik, hij]

/-- After listing at an index that was not listed, it reads as the word, every other as before. -/
theorem Memory.read_list {m : Memory} {k : Nat} (h : ∀ c ∈ m, c.1 ≠ k) (v : Word) (j : Nat) :
    (m.list k v).read j = if j = k then v else m.read j := by
  induction m with
  | nil => simp [Memory.list, Memory.read, eq_comm]
  | cons c rest ih =>
    obtain ⟨i, x⟩ := c
    have hik : i ≠ k := h (i, x) (by simp)
    have ih := ih fun d hd => h d (by simp [hd])
    by_cases hki : k < i
    · simp [Memory.list, Memory.read, hki, eq_comm]
    · by_cases hij : i = j
      · subst hij; simp [Memory.list, Memory.read, hki, hik]
      · simp [Memory.list, Memory.read, hki, ih, hij]

/-- What a read gives after a write: the written word at its index, the old one elsewhere (R33,
R34). It holds of every memory, canonical or not. -/
theorem Memory.read_write (m : Memory) (k : Nat) (v : Word) (j : Nat) :
    (m.write k v).read j = if j = k then v else m.read j := by
  unfold Memory.write
  split
  · next hv => rw [Memory.read_unlist, hv]
  · rw [Memory.read_list (by simp [Memory.unlist]), Memory.read_unlist]
    split <;> rfl

/-- The entries a listing leaves: those of before, and the listed one. -/
theorem Memory.mem_list {m : Memory} {k : Nat} {v : Word} {c : Nat × Word} :
    c ∈ m.list k v ↔ c = (k, v) ∨ c ∈ m := by
  induction m with
  | nil => simp [Memory.list]
  | cons d rest ih =>
    simp only [Memory.list]
    split
    · simp
    · simp only [List.mem_cons, ih]; tauto

/-- Listing at an index that was not listed keeps the indexes strictly rising. -/
theorem Memory.list_rising {m : Memory} {k : Nat} (hm : m.Pairwise (fun c d => c.1 < d.1))
    (h : ∀ c ∈ m, c.1 ≠ k) (v : Word) : (m.list k v).Pairwise (fun c d => c.1 < d.1) := by
  induction m with
  | nil => simp [Memory.list]
  | cons c rest ih =>
    obtain ⟨i, x⟩ := c
    have hp := List.pairwise_cons.1 hm
    have hik : i ≠ k := h (i, x) (by simp)
    simp only [Memory.list]
    split
    · next hki =>
      refine List.pairwise_cons.2 ⟨fun d hd => ?_, hm⟩
      rcases List.mem_cons.1 hd with rfl | hd
      · exact hki
      · exact lt_trans hki (hp.1 d hd)
    · next hki =>
      refine List.pairwise_cons.2 ⟨fun d hd => ?_, ih hp.2 fun d hd => h d (by simp [hd])⟩
      rcases Memory.mem_list.1 hd with rfl | hd
      · show i < k
        omega
      · exact hp.1 d hd

/-- A write at an index of memory keeps the canonical form. -/
theorem Memory.write_wf {m : Memory} (hm : m.wf) {k : Nat} (hk : k < Config.memWords) (v : Word) :
    (m.write k v).wf := by
  have hp : (m.unlist k).Pairwise (fun c d => c.1 < d.1) := hm.1.filter _
  have hc : ∀ c ∈ m.unlist k, c.1 < Config.memWords ∧ c.2 ≠ Config.memReset := fun c h =>
    hm.2 c (List.mem_filter.1 h).1
  unfold Memory.write
  split
  · exact ⟨hp, hc⟩
  · next hv =>
    refine ⟨Memory.list_rising hp (by simp [Memory.unlist]) v, fun c h => ?_⟩
    rcases Memory.mem_list.1 h with rfl | h
    · exact ⟨hk, hv⟩
    · exact hc c h

/-- Memory with nothing listed, as after reset, has the canonical form. -/
theorem Memory.nil_wf : Memory.wf [] := ⟨.nil, by simp⟩

/-- The image load keeps the canonical form. -/
theorem Memory.load_wf {m : Memory} (hm : m.wf) {i : Nat} {image : List Word}
    (h : i + image.length ≤ Config.memWords) : (m.load i image).wf := by
  induction image generalizing m i with
  | nil => exact hm
  | cons w rest ih =>
    have hl : i + rest.length + 1 ≤ Config.memWords := by simpa [Nat.add_assoc] using h
    exact ih (Memory.write_wf hm (by omega) w) (by omega)

/-- The index of a masked address is an index of memory (R31). -/
theorem memIndex_lt (a : MemIndex) : a.toNat < Config.memWords := a.isLt

/-- Two masked addresses with one index are one address. -/
@[simp] theorem memIndex_eq_iff (a b : MemIndex) : a.toNat = b.toNat ↔ a = b :=
  BitVec.toNat_inj

end Sys2Proof.Machine
end

