-- ==== Sys2Proof/Laws/State.lean ====
section
/-! SUPPORT. One lemma per field of the state per update, so that no later proof unfolds a record
update. -/

namespace Sys2Proof.Machine

open Sys2Proof

@[simp] theorem setRegs_regs (s : State) (r : Vector Word 8) : (s.setRegs r).regs = r := rfl
@[simp] theorem setRegs_pc (s : State) (r : Vector Word 8) : (s.setRegs r).pc = s.pc := rfl
@[simp] theorem setRegs_halted (s : State) (r : Vector Word 8) : (s.setRegs r).halted = s.halted := rfl
@[simp] theorem setRegs_mem (s : State) (r : Vector Word 8) : (s.setRegs r).mem = s.mem := rfl
@[simp] theorem setRegs_config (s : State) (r : Vector Word 8) : (s.setRegs r).config = s.config := rfl
@[simp] theorem setRegs_rows1 (s : State) (r : Vector Word 8) : (s.setRegs r).rows1 = s.rows1 := rfl
@[simp] theorem setRegs_rows2 (s : State) (r : Vector Word 8) : (s.setRegs r).rows2 = s.rows2 := rfl
@[simp] theorem setRegs_events (s : State) (r : Vector Word 8) : (s.setRegs r).events = s.events := rfl
@[simp] theorem setRegs_strictDecode (s : State) (r : Vector Word 8) : (s.setRegs r).strictDecode = s.strictDecode := rfl

@[simp] theorem setPc_regs (s : State) (t : Word) : (s.setPc t).regs = s.regs := rfl
@[simp] theorem setPc_pc (s : State) (t : Word) : (s.setPc t).pc = t := rfl
@[simp] theorem setPc_halted (s : State) (t : Word) : (s.setPc t).halted = s.halted := rfl
@[simp] theorem setPc_mem (s : State) (t : Word) : (s.setPc t).mem = s.mem := rfl
@[simp] theorem setPc_config (s : State) (t : Word) : (s.setPc t).config = s.config := rfl
@[simp] theorem setPc_rows1 (s : State) (t : Word) : (s.setPc t).rows1 = s.rows1 := rfl
@[simp] theorem setPc_rows2 (s : State) (t : Word) : (s.setPc t).rows2 = s.rows2 := rfl
@[simp] theorem setPc_events (s : State) (t : Word) : (s.setPc t).events = s.events := rfl
@[simp] theorem setPc_strictDecode (s : State) (t : Word) : (s.setPc t).strictDecode = s.strictDecode := rfl

@[simp] theorem setHalted_regs (s : State) (h : Bool) : (s.setHalted h).regs = s.regs := rfl
@[simp] theorem setHalted_pc (s : State) (h : Bool) : (s.setHalted h).pc = s.pc := rfl
@[simp] theorem setHalted_halted (s : State) (h : Bool) : (s.setHalted h).halted = h := rfl
@[simp] theorem setHalted_mem (s : State) (h : Bool) : (s.setHalted h).mem = s.mem := rfl
@[simp] theorem setHalted_config (s : State) (h : Bool) : (s.setHalted h).config = s.config := rfl
@[simp] theorem setHalted_rows1 (s : State) (h : Bool) : (s.setHalted h).rows1 = s.rows1 := rfl
@[simp] theorem setHalted_rows2 (s : State) (h : Bool) : (s.setHalted h).rows2 = s.rows2 := rfl
@[simp] theorem setHalted_events (s : State) (h : Bool) : (s.setHalted h).events = s.events := rfl
@[simp] theorem setHalted_strictDecode (s : State) (h : Bool) : (s.setHalted h).strictDecode = s.strictDecode := rfl

@[simp] theorem setMem_regs (s : State) (m : Memory) : (s.setMem m).regs = s.regs := rfl
@[simp] theorem setMem_pc (s : State) (m : Memory) : (s.setMem m).pc = s.pc := rfl
@[simp] theorem setMem_halted (s : State) (m : Memory) : (s.setMem m).halted = s.halted := rfl
@[simp] theorem setMem_mem (s : State) (m : Memory) : (s.setMem m).mem = m := rfl
@[simp] theorem setMem_config (s : State) (m : Memory) : (s.setMem m).config = s.config := rfl
@[simp] theorem setMem_rows1 (s : State) (m : Memory) : (s.setMem m).rows1 = s.rows1 := rfl
@[simp] theorem setMem_rows2 (s : State) (m : Memory) : (s.setMem m).rows2 = s.rows2 := rfl
@[simp] theorem setMem_events (s : State) (m : Memory) : (s.setMem m).events = s.events := rfl
@[simp] theorem setMem_strictDecode (s : State) (m : Memory) : (s.setMem m).strictDecode = s.strictDecode := rfl

@[simp] theorem setRows1_regs (s : State) (r : Rows) : (s.setRows1 r).regs = s.regs := rfl
@[simp] theorem setRows1_pc (s : State) (r : Rows) : (s.setRows1 r).pc = s.pc := rfl
@[simp] theorem setRows1_halted (s : State) (r : Rows) : (s.setRows1 r).halted = s.halted := rfl
@[simp] theorem setRows1_mem (s : State) (r : Rows) : (s.setRows1 r).mem = s.mem := rfl
@[simp] theorem setRows1_config (s : State) (r : Rows) : (s.setRows1 r).config = s.config := rfl
@[simp] theorem setRows1_rows1 (s : State) (r : Rows) : (s.setRows1 r).rows1 = r := rfl
@[simp] theorem setRows1_rows2 (s : State) (r : Rows) : (s.setRows1 r).rows2 = s.rows2 := rfl
@[simp] theorem setRows1_events (s : State) (r : Rows) : (s.setRows1 r).events = s.events := rfl
@[simp] theorem setRows1_strictDecode (s : State) (r : Rows) : (s.setRows1 r).strictDecode = s.strictDecode := rfl

@[simp] theorem setRows2_regs (s : State) (r : Rows) : (s.setRows2 r).regs = s.regs := rfl
@[simp] theorem setRows2_pc (s : State) (r : Rows) : (s.setRows2 r).pc = s.pc := rfl
@[simp] theorem setRows2_halted (s : State) (r : Rows) : (s.setRows2 r).halted = s.halted := rfl
@[simp] theorem setRows2_mem (s : State) (r : Rows) : (s.setRows2 r).mem = s.mem := rfl
@[simp] theorem setRows2_config (s : State) (r : Rows) : (s.setRows2 r).config = s.config := rfl
@[simp] theorem setRows2_rows1 (s : State) (r : Rows) : (s.setRows2 r).rows1 = s.rows1 := rfl
@[simp] theorem setRows2_rows2 (s : State) (r : Rows) : (s.setRows2 r).rows2 = r := rfl
@[simp] theorem setRows2_events (s : State) (r : Rows) : (s.setRows2 r).events = s.events := rfl
@[simp] theorem setRows2_strictDecode (s : State) (r : Rows) : (s.setRows2 r).strictDecode = s.strictDecode := rfl

@[simp] theorem emit_regs (s : State) (e : Event) : (s.emit e).regs = s.regs := rfl
@[simp] theorem emit_pc (s : State) (e : Event) : (s.emit e).pc = s.pc := rfl
@[simp] theorem emit_halted (s : State) (e : Event) : (s.emit e).halted = s.halted := rfl
@[simp] theorem emit_mem (s : State) (e : Event) : (s.emit e).mem = s.mem := rfl
@[simp] theorem emit_config (s : State) (e : Event) : (s.emit e).config = s.config := rfl
@[simp] theorem emit_rows1 (s : State) (e : Event) : (s.emit e).rows1 = s.rows1 := rfl
@[simp] theorem emit_rows2 (s : State) (e : Event) : (s.emit e).rows2 = s.rows2 := rfl
@[simp] theorem emit_events (s : State) (e : Event) : (s.emit e).events = s.events ++ [e] := rfl
@[simp] theorem emit_strictDecode (s : State) (e : Event) : (s.emit e).strictDecode = s.strictDecode := rfl

@[simp] theorem advance_regs (s : State) : s.advance.regs = s.regs := rfl
@[simp] theorem advance_pc (s : State) : s.advance.pc = s.pc + 1#16 := rfl
@[simp] theorem advance_halted (s : State) : s.advance.halted = s.halted := rfl
@[simp] theorem advance_mem (s : State) : s.advance.mem = s.mem := rfl
@[simp] theorem advance_config (s : State) : s.advance.config = s.config := rfl
@[simp] theorem advance_rows1 (s : State) : s.advance.rows1 = s.rows1 := rfl
@[simp] theorem advance_rows2 (s : State) : s.advance.rows2 = s.rows2 := rfl
@[simp] theorem advance_events (s : State) : s.advance.events = s.events := rfl
@[simp] theorem advance_strictDecode (s : State) : s.advance.strictDecode = s.strictDecode := rfl

end Sys2Proof.Machine
end

