-- ==== Sys2Proof/Laws/Ops.lean ====
section
/-! SUPPORT. One lemma per shared operation over registers, memory and the halted flag, saying once
what it can do. -/

namespace Sys2Proof.Machine

open Sys2Proof

/-- Register 0 reads as 0 (R11). -/
@[simp] theorem reg_zero (s : State) : s.reg 0#3 = 0#16 := by simp [State.reg]

/-- A register reads the same in two states with one register file. -/
theorem reg_congr {s t : State} (h : t.regs = s.regs) (r : RegIdx) : t.reg r = s.reg r := by
  simp [State.reg, h]

/-- What a register reads after a register write (R12). -/
theorem reg_writeReg (s : State) (d : RegIdx) (v : Word) (r : RegIdx) :
    (s.writeReg d v).reg r = if r = 0#3 then 0#16 else if r = d then v else s.reg r := by
  by_cases hr : r = 0#3
  · simp [hr]
  by_cases hd : d = 0#3
  · have : r ≠ d := by rintro rfl; exact hr hd
    simp [State.writeReg, hd, hr]
  by_cases h : r = d
  · subst h
    simp [State.writeReg, State.reg, hr]
  · have : d.toNat ≠ r.toNat := fun e => h (BitVec.eq_of_toNat_eq e.symm)
    simp [State.writeReg, State.reg, hr, hd, h, this]

/-- A register write changes no field but the register file. -/
theorem writeReg_eq (s : State) (d : RegIdx) (v : Word) :
    ∃ r, s.writeReg d v = s.setRegs r := by
  by_cases hd : d = 0#3
  · exact ⟨s.regs, by simp [State.writeReg, hd, State.setRegs]⟩
  · exact ⟨_, by rw [State.writeReg, if_neg hd]⟩

@[simp] theorem writeReg_pc (s : State) (d : RegIdx) (v : Word) : (s.writeReg d v).pc = s.pc := by
  obtain ⟨r, h⟩ := writeReg_eq s d v; simp [h]
@[simp] theorem writeReg_halted (s : State) (d : RegIdx) (v : Word) :
    (s.writeReg d v).halted = s.halted := by
  obtain ⟨r, h⟩ := writeReg_eq s d v; simp [h]
@[simp] theorem writeReg_mem (s : State) (d : RegIdx) (v : Word) :
    (s.writeReg d v).mem = s.mem := by
  obtain ⟨r, h⟩ := writeReg_eq s d v; simp [h]
@[simp] theorem writeReg_config (s : State) (d : RegIdx) (v : Word) :
    (s.writeReg d v).config = s.config := by
  obtain ⟨r, h⟩ := writeReg_eq s d v; simp [h]
@[simp] theorem writeReg_rows1 (s : State) (d : RegIdx) (v : Word) :
    (s.writeReg d v).rows1 = s.rows1 := by
  obtain ⟨r, h⟩ := writeReg_eq s d v; simp [h]
@[simp] theorem writeReg_rows2 (s : State) (d : RegIdx) (v : Word) :
    (s.writeReg d v).rows2 = s.rows2 := by
  obtain ⟨r, h⟩ := writeReg_eq s d v; simp [h]
@[simp] theorem writeReg_events (s : State) (d : RegIdx) (v : Word) :
    (s.writeReg d v).events = s.events := by
  obtain ⟨r, h⟩ := writeReg_eq s d v; simp [h]
@[simp] theorem writeReg_strictDecode (s : State) (d : RegIdx) (v : Word) :
    (s.writeReg d v).strictDecode = s.strictDecode := by
  obtain ⟨r, h⟩ := writeReg_eq s d v; simp [h]

/-- A register write keeps the slot behind register 0. -/
theorem writeReg_zero_slot (s : State) (d : RegIdx) (v : Word) :
    (s.writeReg d v).regs[0] = s.regs[0] := by
  by_cases hd : d = 0#3
  · simp [State.writeReg, hd]
  · have : d.toNat ≠ 0 := fun e => hd (BitVec.eq_of_toNat_eq e)
    simp [State.writeReg, hd, this]

/-- A word of memory reads the same in two states with one memory. -/
theorem memRead_congr {s t : State} (h : t.mem = s.mem) (a : MemIndex) :
    t.memRead a = s.memRead a := by
  simp [State.memRead, h]

/-- What a word of memory reads after a store (R34). -/
theorem memRead_memWrite (s : State) (a : MemIndex) (v : Word) (b : MemIndex) :
    (s.memWrite a v).memRead b = if b = a then v else s.memRead b := by
  simp [State.memWrite, State.memRead, Memory.read_write]

/-- Setting the halted flag happens exactly on a self-jump (R110). -/
theorem haltIfSelf_eq (s : State) (t : Word) :
    s.haltIfSelf t = s.setHalted (s.halted || decide (t = s.pc)) := by
  by_cases h : t = s.pc <;> simp [State.haltIfSelf, State.setHalted, h]

/-- An unknown opcode faults in strict mode and advances otherwise (R76, R158). -/
theorem unknownOpcode_next {s t : State} (h : unknownOpcode s = .next t) :
    s.strictDecode = false ∧ t = s.advance := by
  unfold unknownOpcode at h
  split at h
  · cases h
  · next hs => cases h; exact ⟨by simpa using hs, rfl⟩

end Sys2Proof.Machine
end

