-- ==== Sys2Proof/Laws/Cache.lean ====
section
/-! SUPPORT. What the operations of the cache model can do (45_cache_model.md R124 to R137), once for
each: a touch of one row, of the rows of a cache, and the accesses of a load and of a store. -/

namespace Sys2Proof.Machine

open Sys2Proof

/-! ### Geometry -/

/-- What a legal triple gives (R123). -/
theorem legalGeometry_pos {g : Geometry} (h : legalGeometry g = true) :
    1 ≤ g.assoc ∧ 1 ≤ g.block ∧ 1 ≤ rowCount g := by
  simp only [legalGeometry, Bool.and_eq_true, decide_eq_true_eq] at h
  obtain ⟨⟨⟨ha, hb⟩, -⟩, hr⟩ := h
  refine ⟨?_, ?_, hr⟩
  · simp [Config.legalAssoc] at ha; omega
  · simp [Config.legalBlock] at hb; omega

/-- An address maps to a row the cache has. -/
theorem rowOf_lt {g : Geometry} (h : 1 ≤ rowCount g) (a : MemIndex) : rowOf g a < rowCount g :=
  Nat.mod_lt _ h

/-- No tag is above the largest (R125). -/
theorem tagOf_le (g : Geometry) (a : MemIndex) : tagOf g a ≤ 8191 / g.block / rowCount g :=
  Nat.div_le_div_right (Nat.div_le_div_right (Nat.le_of_lt_succ (memIndex_lt a)))

/-! ### Touch -/

/-- A touched row holds the touched tag and tags it held before. -/
theorem mem_touch {n : Nat} {row : Row} {tag x : Nat} (h : x ∈ touch n row tag) :
    x = tag ∨ x ∈ row := by
  unfold touch at h
  split at h
  · rcases List.mem_append.1 h with h | h
    · exact .inr (List.mem_of_mem_erase h)
    · exact .inl (by simpa using h)
  · rcases List.mem_append.1 h with h | h
    · split at h
      · exact .inr (List.mem_of_mem_tail h)
      · exact .inr h
    · exact .inl (by simpa using h)

/-- A touched row holds the touched tag. -/
theorem self_mem_touch (n : Nat) (row : Row) (tag : Nat) : tag ∈ touch n row tag := by
  unfold touch; split <;> simp

/-- A touch keeps the length bound of R126. -/
theorem touch_length_le {n : Nat} (hn : 1 ≤ n) {row : Row} (h : row.length ≤ n) (tag : Nat) :
    (touch n row tag).length ≤ n := by
  unfold touch
  split
  · next hc =>
    have hm : tag ∈ row := by simpa using hc
    have := List.length_pos_of_mem hm
    simp [List.length_erase_of_mem hm]; omega
  · split
    · simp; omega
    · simp; omega

/-- A touch keeps the tags of a row distinct (R126). -/
theorem touch_nodup {n : Nat} {row : Row} (h : row.Nodup) (tag : Nat) :
    (touch n row tag).Nodup := by
  unfold touch
  split
  · refine (h.erase tag).append (by simp) fun x hx hx' => ?_
    obtain rfl : x = tag := by simpa using hx'
    exact h.not_mem_erase hx
  · next hc =>
    have hm : tag ∉ row := by simpa using hc
    split
    · refine (h.sublist (List.tail_sublist _)).append (by simp) fun x hx hx' => ?_
      obtain rfl : x = tag := by simpa using hx'
      exact hm (List.mem_of_mem_tail hx)
    · refine h.append (by simp) fun x hx hx' => ?_
      obtain rfl : x = tag := by simpa using hx'
      exact hm hx

/-- Touching the row of an address keeps the rows of a cache well-formed. -/
theorem touchRows_wf {g : Geometry} (hg : legalGeometry g = true) {rows : Rows}
    (h : RowsWf g rows) (a : MemIndex) : RowsWf g (touchRows g rows a) := by
  obtain ⟨h1, -, h3⟩ := legalGeometry_pos hg
  obtain ⟨hl, hr⟩ := h
  refine ⟨by simpa [touchRows] using hl, fun r hm => ?_⟩
  rcases List.mem_or_eq_of_mem_set hm with hm | rfl
  · exact hr r hm
  · have hlt : rowOf g a < rows.length := hl ▸ rowOf_lt h3 a
    have hmem : rows.getD (rowOf g a) [] ∈ rows := by
      simp [List.getD_eq_getElem?_getD, List.getElem?_eq_getElem hlt]
    obtain ⟨hA, hN, hT⟩ := hr _ hmem
    refine ⟨touch_length_le h1 hA _, touch_nodup hN _, fun t ht => ?_⟩
    rcases mem_touch ht with rfl | ht
    · exact tagOf_le g a
    · exact hT t ht

/-! ### The accesses -/

@[simp] theorem readAccess_row (g : Geometry) (rows : Rows) (a : MemIndex) :
    (readAccess g rows a).row = rowOf g a := rfl
@[simp] theorem readAccess_rows (g : Geometry) (rows : Rows) (a : MemIndex) :
    (readAccess g rows a).rows = touchRows g rows a := rfl
@[simp] theorem writeAccess_row (g : Geometry) (rows : Rows) (a : MemIndex) :
    (writeAccess g rows a).row = rowOf g a := rfl
@[simp] theorem writeAccess_rows (g : Geometry) (rows : Rows) (a : MemIndex) :
    (writeAccess g rows a).rows = touchRows g rows a := rfl
@[simp] theorem writeAccess_kind (g : Geometry) (rows : Rows) (a : MemIndex) :
    (writeAccess g rows a).kind = .sw := rfl

/-- Rows and events set, all else kept: the only change a cache access can make. -/
def State.withTrace (s : State) (r1 r2 : Rows) (es : List Event) : State :=
  { s with rows1 := r1, rows2 := r2, events := s.events ++ es }

/-- A load's cache access sets rows and appends events (R136). -/
theorem cacheRead_eq (s : State) (a : MemIndex) (p : Word) :
    ∃ r1 r2 es, s.cacheRead a p = s.withTrace r1 r2 es := by
  unfold State.cacheRead
  split
  · exact ⟨s.rows1, s.rows2, [], by simp [State.withTrace]⟩
  · exact ⟨_, s.rows2, [_], rfl⟩
  · split
    · exact ⟨_, _, [_, _], by simp [State.withTrace, State.commitL1, State.commitL2, State.emit,
        State.setRows1, State.setRows2]; exact ⟨rfl, rfl, rfl, rfl⟩⟩
    · exact ⟨_, s.rows2, [_], rfl⟩

/-- A store's cache access sets rows and appends events (R137). -/
theorem cacheWrite_eq (s : State) (a : MemIndex) (p : Word) :
    ∃ r1 r2 es, s.cacheWrite a p = s.withTrace r1 r2 es := by
  unfold State.cacheWrite
  split
  · exact ⟨s.rows1, s.rows2, [], by simp [State.withTrace]⟩
  · exact ⟨_, s.rows2, [_], rfl⟩
  · exact ⟨_, _, [_, _], by simp [State.withTrace, State.commitL1, State.commitL2, State.emit,
      State.setRows1, State.setRows2]; exact ⟨rfl, rfl, rfl, rfl⟩⟩

@[simp] theorem cacheRead_regs (s : State) (a : MemIndex) (p : Word) :
    (s.cacheRead a p).regs = s.regs := by obtain ⟨_, _, _, h⟩ := cacheRead_eq s a p; rw [h]; rfl
@[simp] theorem cacheRead_pc (s : State) (a : MemIndex) (p : Word) :
    (s.cacheRead a p).pc = s.pc := by obtain ⟨_, _, _, h⟩ := cacheRead_eq s a p; rw [h]; rfl
@[simp] theorem cacheRead_halted (s : State) (a : MemIndex) (p : Word) :
    (s.cacheRead a p).halted = s.halted := by
  obtain ⟨_, _, _, h⟩ := cacheRead_eq s a p; rw [h]; rfl
@[simp] theorem cacheRead_mem (s : State) (a : MemIndex) (p : Word) :
    (s.cacheRead a p).mem = s.mem := by obtain ⟨_, _, _, h⟩ := cacheRead_eq s a p; rw [h]; rfl
@[simp] theorem cacheRead_config (s : State) (a : MemIndex) (p : Word) :
    (s.cacheRead a p).config = s.config := by
  obtain ⟨_, _, _, h⟩ := cacheRead_eq s a p; rw [h]; rfl
@[simp] theorem cacheRead_strictDecode (s : State) (a : MemIndex) (p : Word) :
    (s.cacheRead a p).strictDecode = s.strictDecode := by
  obtain ⟨_, _, _, h⟩ := cacheRead_eq s a p; rw [h]; rfl

@[simp] theorem cacheWrite_regs (s : State) (a : MemIndex) (p : Word) :
    (s.cacheWrite a p).regs = s.regs := by obtain ⟨_, _, _, h⟩ := cacheWrite_eq s a p; rw [h]; rfl
@[simp] theorem cacheWrite_pc (s : State) (a : MemIndex) (p : Word) :
    (s.cacheWrite a p).pc = s.pc := by obtain ⟨_, _, _, h⟩ := cacheWrite_eq s a p; rw [h]; rfl
@[simp] theorem cacheWrite_halted (s : State) (a : MemIndex) (p : Word) :
    (s.cacheWrite a p).halted = s.halted := by
  obtain ⟨_, _, _, h⟩ := cacheWrite_eq s a p; rw [h]; rfl
@[simp] theorem cacheWrite_mem (s : State) (a : MemIndex) (p : Word) :
    (s.cacheWrite a p).mem = s.mem := by obtain ⟨_, _, _, h⟩ := cacheWrite_eq s a p; rw [h]; rfl
@[simp] theorem cacheWrite_config (s : State) (a : MemIndex) (p : Word) :
    (s.cacheWrite a p).config = s.config := by
  obtain ⟨_, _, _, h⟩ := cacheWrite_eq s a p; rw [h]; rfl
@[simp] theorem cacheWrite_strictDecode (s : State) (a : MemIndex) (p : Word) :
    (s.cacheWrite a p).strictDecode = s.strictDecode := by
  obtain ⟨_, _, _, h⟩ := cacheWrite_eq s a p; rw [h]; rfl

/-- A register reads the same after a load's cache access. -/
@[simp] theorem cacheRead_reg (s : State) (a : MemIndex) (p : Word) (r : RegIdx) :
    (s.cacheRead a p).reg r = s.reg r := reg_congr (cacheRead_regs s a p) r

/-- A register reads the same after a store's cache access. -/
@[simp] theorem cacheWrite_reg (s : State) (a : MemIndex) (p : Word) (r : RegIdx) :
    (s.cacheWrite a p).reg r = s.reg r := reg_congr (cacheWrite_regs s a p) r

end Sys2Proof.Machine
end

