-- ==== Sys2Proof/Laws/Decode.lean ====
section
/-! SUPPORT. The fields of a packed word, one lemma per field per class (30_encoding.md R51 to R53). -/

namespace Sys2Proof

@[simp] theorem fieldOp_packR (a b d : RegIdx) (f : Func) : fieldOp (packR a b d f) = 0#3 := by
  unfold fieldOp packR place; ext i h; interval_cases i <;> simp
@[simp] theorem fieldA_packR (a b d : RegIdx) (f : Func) : fieldA (packR a b d f) = a := by
  unfold fieldA packR place; ext i h; interval_cases i <;> simp
@[simp] theorem fieldB_packR (a b d : RegIdx) (f : Func) : fieldB (packR a b d f) = b := by
  unfold fieldB packR place; ext i h; interval_cases i <;> simp
@[simp] theorem fieldD_packR (a b d : RegIdx) (f : Func) : fieldD (packR a b d f) = d := by
  unfold fieldD packR place; ext i h; interval_cases i <;> simp
@[simp] theorem fieldFunc_packR (a b d : RegIdx) (f : Func) : fieldFunc (packR a b d f) = f := by
  unfold fieldFunc packR place; ext i h; interval_cases i <;> simp

@[simp] theorem fieldOp_packI (o : OpClass) (a b : RegIdx) (i : Imm7) :
    fieldOp (packI o a b i) = o := by
  unfold fieldOp packI place; ext i h; interval_cases i <;> simp
@[simp] theorem fieldA_packI (o : OpClass) (a b : RegIdx) (i : Imm7) :
    fieldA (packI o a b i) = a := by
  unfold fieldA packI place; ext i h; interval_cases i <;> simp
@[simp] theorem fieldB_packI (o : OpClass) (a b : RegIdx) (i : Imm7) :
    fieldB (packI o a b i) = b := by
  unfold fieldB packI place; ext i h; interval_cases i <;> simp
@[simp] theorem fieldImm7_packI (o : OpClass) (a b : RegIdx) (i : Imm7) :
    fieldImm7 (packI o a b i) = i := by
  unfold fieldImm7 packI place; ext i h; interval_cases i <;> simp

@[simp] theorem fieldOp_packJ (o : OpClass) (i : Imm13) : fieldOp (packJ o i) = o := by
  unfold fieldOp packJ place; ext i h; interval_cases i <;> simp
@[simp] theorem fieldImm13_packJ (o : OpClass) (i : Imm13) : fieldImm13 (packJ o i) = i := by
  unfold fieldImm13 packJ place; ext i h; interval_cases i <;> simp

/-- A word is the class-R word of its fields when its opcode class is 000. -/
theorem packR_fields {w : Word} (h : fieldOp w = 0#3) :
    packR (fieldA w) (fieldB w) (fieldD w) (fieldFunc w) = w := by
  unfold packR
  rw [← h]
  unfold place fieldOp fieldA fieldB fieldD fieldFunc
  ext i hi; interval_cases i <;> simp

/-- A word is the class-I word of its fields. -/
theorem packI_fields (w : Word) : packI (fieldOp w) (fieldA w) (fieldB w) (fieldImm7 w) = w := by
  unfold packI place fieldOp fieldA fieldB fieldImm7
  ext i hi; interval_cases i <;> simp

/-- A word is the class-J word of its fields. -/
theorem packJ_fields (w : Word) : packJ (fieldOp w) (fieldImm13 w) = w := by
  unfold packJ place fieldOp fieldImm13
  ext i hi; interval_cases i <;> simp

end Sys2Proof
end

