-- ==== Sys2Proof/Laws/Operands.lean ====
section
/-! SUPPORT. One lemma per operand form, in terms of core operations or of numbers (30_encoding.md R54,
R55; 20_memory.md R31). -/

namespace Sys2Proof.Machine

open Sys2Proof

/-- The extension of R54 is the two's complement sign extension. -/
theorem sext16_eq_signExtend (f : Imm7) : sext16 f = f.signExtend 16 := by
  revert f; decide

/-- The zero-extended imm7 is the field's number (R55). -/
@[simp] theorem zext16_toNat (f : Imm7) : (zext16 f).toNat = f.toNat := by
  have := f.isLt
  simp only [zext16, BitVec.toNat_setWidth]
  omega

/-- The absolute target is the field's number (R55). -/
@[simp] theorem jumpTarget_toNat (f : Imm13) : (jumpTarget f).toNat = f.toNat := by
  have := f.isLt
  simp only [jumpTarget, BitVec.toNat_setWidth]
  omega

/-- Masking an address is taking it modulo 8192 (R31). -/
@[simp] theorem maskAddr_toNat (a : Word) : (maskAddr a).toNat = a.toNat % 8192 := by
  simp [maskAddr]

/-- The comparison bit in terms of the unsigned numbers (R89). -/
theorem ltBit_eq (a b : Word) : ltBit a b = if a.toNat < b.toNat then 1#16 else 0#16 := by
  simp [ltBit, BitVec.ult]

end Sys2Proof.Machine
end

