-- ==== Sys2Proof/Laws/Exec.lean ====
section
/-! SUPPORT. What the operations shared by several instructions leave, said once: a computed register, a
new program counter, and the trace of a cache access. -/

namespace Sys2Proof.Machine

open Sys2Proof

/-- Writing a register and advancing does that and nothing else (R12, R84). -/
theorem writeAndAdvance_wroteReg (s : State) (d : RegIdx) (v : Word) :
    WroteReg s (s.writeAndAdvance d v) d v where
  dst := by
    rw [State.writeAndAdvance, reg_congr (advance_regs _), reg_writeReg]; simp
  others r hr := by
    rw [State.writeAndAdvance, reg_congr (advance_regs _), reg_writeReg]
    by_cases h0 : r = 0#3
    · subst h0; simp
    · simp [h0, hr]
  pc := by simp [State.writeAndAdvance]
  mem a := memRead_congr (by simp [State.writeAndAdvance]) a
  halted := by simp [State.writeAndAdvance]
  params := by simp [SameParams, State.writeAndAdvance]
  trace := by simp [SameTrace, State.writeAndAdvance]

/-- Setting the program counter does that and nothing else (R75). -/
theorem setPc_wentTo (s : State) (t : Word) : WentTo s (s.setPc t) t where
  pc := rfl
  regs _ := rfl
  mem _ := rfl
  halted := rfl
  params := ⟨rfl, rfl⟩
  trace := ⟨rfl, rfl, rfl⟩

/-- What a load's cache access leaves depends on the configuration, the rows and the events alone
(R136, R141). -/
theorem cacheRead_trace {s t : State} (hc : t.config = s.config) (h : SameTrace s t)
    (a : MemIndex) (p : Word) : SameTrace (s.cacheRead a p) (t.cacheRead a p) := by
  obtain ⟨h1, h2, h3⟩ := h
  unfold State.cacheRead
  rw [hc]
  cases s.config with
  | none => exact ⟨h1, h2, h3⟩
  | one g1 => simp [SameTrace, State.commitL1, h1, h2, h3]
  | two g1 g2 =>
    by_cases hm : (readAccess g1 s.rows1 a).kind = .miss <;>
      simp [SameTrace, State.commitL1, State.commitL2, h1, h2, h3, hm]

/-- What a store's cache access leaves depends on the configuration, the rows and the events alone
(R137, R141). -/
theorem cacheWrite_trace {s t : State} (hc : t.config = s.config) (h : SameTrace s t)
    (a : MemIndex) (p : Word) : SameTrace (s.cacheWrite a p) (t.cacheWrite a p) := by
  obtain ⟨h1, h2, h3⟩ := h
  unfold State.cacheWrite
  rw [hc]
  cases s.config with
  | none => exact ⟨h1, h2, h3⟩
  | one g1 => simp [SameTrace, State.commitL1, h1, h2, h3]
  | two g1 g2 => simp [SameTrace, State.commitL1, State.commitL2, h1, h2, h3]

end Sys2Proof.Machine
end

