-- ==== Sys2Proof/Laws/HostPort.lean ====
section
/-! SUPPORT. What the host's transactions can answer, said once each (10_state.md R23, R24;
45_cache_model.md R123). -/

namespace Sys2Proof.Machine

open Sys2Proof

/-- A configuration is accepted exactly when it is legal, and then sets the four fields it is about. -/
theorem configure_eq_next (s t : State) (c : CacheConfig) (strict : Bool) :
    s.configure c strict = .next t ↔ legalConfig c = true ∧
      t = { s with config := c, rows1 := emptyRows1 c, rows2 := emptyRows2 c, strictDecode := strict } := by
  by_cases h : legalConfig c = true <;> simp [State.configure, h, eq_comm]

/-- An image is accepted exactly when it fits, and then sets memory alone. -/
theorem loadImage_eq_next (s t : State) (image : List Word) :
    s.loadImage image = .next t ↔ image.length ≤ 8192 ∧ t = s.setMem (s.mem.load 0 image) := by
  by_cases h : image.length ≤ 8192 <;> simp [State.loadImage, Config.memWords, h, eq_comm]

@[simp] theorem hostReset_regs (s : State) : s.hostReset.regs = Vector.replicate 8 0#16 := rfl
@[simp] theorem hostReset_pc (s : State) : s.hostReset.pc = 0#16 := rfl
@[simp] theorem hostReset_halted (s : State) : s.hostReset.halted = false := rfl
@[simp] theorem hostReset_mem (s : State) : s.hostReset.mem = [] := rfl
@[simp] theorem hostReset_config (s : State) : s.hostReset.config = s.config := rfl
@[simp] theorem hostReset_rows1 (s : State) : s.hostReset.rows1 = emptyRows1 s.config := rfl
@[simp] theorem hostReset_rows2 (s : State) : s.hostReset.rows2 = emptyRows2 s.config := rfl
@[simp] theorem hostReset_events (s : State) : s.hostReset.events = [] := rfl
@[simp] theorem hostReset_strictDecode (s : State) : s.hostReset.strictDecode = s.strictDecode := rfl

end Sys2Proof.Machine
end

