-- ==== Sys2Proof/Laws/PerInstr.lean ====
section
/-! SUPPORT. The families of statements about every instruction, one lemma per constructor. -/

/-- The word of a well-formed instruction belongs to the instruction's row of the opcode map
(30_encoding.md R56, R57). -/
def Sys2Proof.Laws.OpcodeRow.Statement (i : Sys2Proof.Instr) : Prop :=
  i.wf = true → Sys2Proof.rowMatches (Sys2Proof.encode i) i.row = true

namespace Sys2Proof.Laws.OpcodeRow

/-- The bits of a class-R word under the mask of the function code. -/
theorem packR_mask (a b d : RegIdx) (f m : Func) :
    packR a b d f &&& (0xE000#16 ||| place m 0) = place (f &&& m) 0 := by
  unfold packR place; ext i h; interval_cases i <;> simp

/-- The bits of a class-I word under the mask of the opcode class. -/
theorem packI_mask (o : OpClass) (a b : RegIdx) (i : Imm7) :
    packI o a b i &&& 0xE000#16 = place o 13 := by
  unfold packI place; ext i h; interval_cases i <;> simp

/-- The bits of a class-J word under the mask of the opcode class. -/
theorem packJ_mask (o : OpClass) (i : Imm13) : packJ o i &&& 0xE000#16 = place o 13 := by
  unfold packJ place; ext i h; interval_cases i <;> simp

theorem add (a b d : RegIdx) : Statement (.add a b d) := fun _ =>
  beq_iff_eq.2 ((packR_mask a b d 0 15).trans rfl)
theorem sub (a b d : RegIdx) : Statement (.sub a b d) := fun _ =>
  beq_iff_eq.2 ((packR_mask a b d 1 15).trans rfl)
theorem or (a b d : RegIdx) : Statement (.or a b d) := fun _ =>
  beq_iff_eq.2 ((packR_mask a b d 2 15).trans rfl)
theorem and (a b d : RegIdx) : Statement (.and a b d) := fun _ =>
  beq_iff_eq.2 ((packR_mask a b d 3 15).trans rfl)
theorem slt (a b d : RegIdx) : Statement (.slt a b d) := fun _ =>
  beq_iff_eq.2 ((packR_mask a b d 4 15).trans rfl)
theorem jr (a b d : RegIdx) : Statement (.jr a b d) := fun _ =>
  beq_iff_eq.2 ((packR_mask a b d 8 15).trans rfl)
theorem addi (s d : RegIdx) (i : Imm7) : Statement (.addi s d i) := fun _ =>
  beq_iff_eq.2 ((packI_mask 1 s d i).trans rfl)
theorem j (i : Imm13) : Statement (.j i) := fun _ =>
  beq_iff_eq.2 ((packJ_mask 2 i).trans rfl)
theorem jal (i : Imm13) : Statement (.jal i) := fun _ =>
  beq_iff_eq.2 ((packJ_mask 3 i).trans rfl)
theorem lw (s d : RegIdx) (i : Imm7) : Statement (.lw s d i) := fun _ =>
  beq_iff_eq.2 ((packI_mask 4 s d i).trans rfl)
theorem sw (s d : RegIdx) (i : Imm7) : Statement (.sw s d i) := fun _ =>
  beq_iff_eq.2 ((packI_mask 5 s d i).trans rfl)
theorem jeq (s d : RegIdx) (i : Imm7) : Statement (.jeq s d i) := fun _ =>
  beq_iff_eq.2 ((packI_mask 6 s d i).trans rfl)
theorem slti (s d : RegIdx) (i : Imm7) : Statement (.slti s d i) := fun _ =>
  beq_iff_eq.2 ((packI_mask 7 s d i).trans rfl)
theorem rsvdF5 (a b d : RegIdx) : Statement (.rsvdF5 a b d) := fun _ =>
  beq_iff_eq.2 ((packR_mask a b d 5 15).trans rfl)
theorem rsvdF6_7 (a b d : RegIdx) (f : Func) : Statement (.rsvdF6_7 a b d f) := fun h =>
  beq_iff_eq.2 ((packR_mask a b d f 14).trans
    ((by decide : ∀ f : Func, (f == 6#4 || f == 7#4) = true →
      place (f &&& 14) 0 = 0x0006#16) f h))
theorem rsvdF9 (a b d : RegIdx) : Statement (.rsvdF9 a b d) := fun _ =>
  beq_iff_eq.2 ((packR_mask a b d 9 15).trans rfl)
theorem rsvdF10_11 (a b d : RegIdx) (f : Func) : Statement (.rsvdF10_11 a b d f) := fun h =>
  beq_iff_eq.2 ((packR_mask a b d f 14).trans
    ((by decide : ∀ f : Func, (f == 10#4 || f == 11#4) = true →
      place (f &&& 14) 0 = 0x000A#16) f h))
theorem rsvdF12_15 (a b d : RegIdx) (f : Func) : Statement (.rsvdF12_15 a b d f) := fun h =>
  beq_iff_eq.2 ((packR_mask a b d f 12).trans
    ((by decide : ∀ f : Func, (f == 12#4 || f == 13#4 || f == 14#4 || f == 15#4) = true →
      place (f &&& 12) 0 = 0x000C#16) f h))

end Sys2Proof.Laws.OpcodeRow
end

