-- ==== Sys2Proof/Laws/Step.lean ====
section
/-! SUPPORT. What a step that answers a next state has done. -/

namespace Sys2Proof.Machine

open Sys2Proof

/-- A step that answers a next state: the configuration is legal, and the machine was halted and
kept its state, or it carried out the fetched instruction (R70 to R80, R123). -/
theorem step_next {s t : State} (h : step s = .next t) :
    legalConfig s.config = true ∧
      ((s.halted = true ∧ t = s) ∨ (s.halted = false ∧ exec (decode s.fetch) s = .next t)) := by
  unfold step at h
  split at h
  · next hl =>
    refine ⟨hl, ?_⟩
    split at h
    · next hh => cases h; exact .inl ⟨hh, rfl⟩
    · next hh => exact .inr ⟨by simpa using hh, h⟩
  · cases h

/-! ### Runs -/

/-- A run whose first step answers a next state goes on from it. -/
theorem run_succ_of_next {s t : State} (h : step s = .next t) (k : Nat) :
    Host.Core.run core (k + 1) s = Host.Core.run core k t := by
  have h' : core.step s = .next t := h
  simp only [Host.Core.run, h']

/-- A run whose first step faults ends in that fault. -/
theorem run_succ_of_fault {s : State} {f : Fault} (h : step s = .fault f) (k : Nat) :
    Host.Core.run core (k + 1) s = .fault f := by
  have h' : core.step s = .fault f := h
  simp only [Host.Core.run, h']

/-- A run whose first step is refused ends in that refusal. -/
theorem run_succ_of_refused {s : State} {r : Refusal} (h : step s = .refused r) (k : Nat) :
    Host.Core.run core (k + 1) s = .refused r := by
  have h' : core.step s = .refused r := h
  simp only [Host.Core.run, h']

/-- A property that every step keeps holds after every run that answers a next state. -/
theorem run_induction {P : State → Prop} (hstep : ∀ s t, P s → step s = .next t → P t) :
    ∀ (k : Nat) (s t : State), P s → Host.Core.run core k s = .next t → P t := by
  intro k
  induction k with
  | zero => intro s t hs h; cases h; exact hs
  | succ k ih =>
    intro s t hs h
    cases hu : step s with
    | next u => rw [run_succ_of_next hu] at h; exact ih u t (hstep s u hs hu) h
    | fault f => rw [run_succ_of_fault hu] at h; cases h
    | refused r => rw [run_succ_of_refused hu] at h; cases h

end Sys2Proof.Machine
end

