-- ==== Sys2Proof/Tests/Slice0.lean ====
section
/-! SUPPORT. The model's own tests. Expected results are the vectors of 95_test_vectors.md (named in the
comments), or worked by hand from the rule named; then a witness for the hypotheses of each
statement that has some. -/

namespace Sys2Proof.Tests

open Sys2Proof Sys2Proof.Machine

/-! ### Well-formedness: each check refuses an ill-formed term (R57) -/

theorem test_wf_f6_7_refuses_8 : Instr.wf (.rsvdF6_7 0 0 0 8) = false := by decide
theorem test_wf_f10_11_refuses_9 : Instr.wf (.rsvdF10_11 0 0 0 9) = false := by decide
theorem test_wf_f12_15_refuses_11 : Instr.wf (.rsvdF12_15 0 0 0 11) = false := by decide
theorem test_wf_f12_15_accepts_12 : Instr.wf (.rsvdF12_15 0 0 0 12) = true := by decide

/-! ### Decoding: words written out from the encodings (R51 to R57), one per constructor

Most are VD1 to VD10 and the words of 95_test_vectors.md; the others are written by hand bit by
bit. -/

-- 000 001 010 011 0000 (VD1)
theorem test_decode_add : decode 0b0000010100110000#16 = .add 1 2 3 := by decide
-- 000 001 010 011 0001 (VA5)
theorem test_decode_sub : decode 0b0000010100110001#16 = .sub 1 2 3 := by decide
-- 000 101 000 100 0010 (VA10)
theorem test_decode_or : decode 0b0001010001000010#16 = .or 5 0 4 := by decide
-- 000 001 000 011 0011 (VA12)
theorem test_decode_and : decode 0b0000010000110011#16 = .and 1 0 3 := by decide
-- 000 010 001 011 0100 (VA14)
theorem test_decode_slt : decode 0b0000100010110100#16 = .slt 2 1 3 := by decide
-- 000 001 101 110 1000 (VD5)
theorem test_decode_jr : decode 0b0000011011101000#16 = .jr 1 5 6 := by decide
-- 001 010 001 1000000 (VI3)
theorem test_decode_addi : decode 0b0010100011000000#16 = .addi 2 1 0x40 := by decide
-- 010 0000000000011 (VD3)
theorem test_decode_j : decode 0b0100000000000011#16 = .j 3 := by decide
-- 011 1111111111111 (VD4)
theorem test_decode_jal : decode 0b0111111111111111#16 = .jal 8191 := by decide
-- 100 001 010 0000011 (VM1)
theorem test_decode_lw : decode 0b1000010100000011#16 = .lw 1 2 3 := by decide
-- 101 000 011 0010100 (VD9)
theorem test_decode_sw : decode 0b1010000110010100#16 = .sw 0 3 20 := by decide
-- 110 001 010 0000010 (VC15)
theorem test_decode_jeq : decode 0b1100010100000010#16 = .jeq 1 2 2 := by decide
-- 111 001 010 1111111 (VD2)
theorem test_decode_slti : decode 0b1110010101111111#16 = .slti 1 2 0x7F := by decide
-- 000 111 111 111 0101 (VD6)
theorem test_decode_f5 : decode 0b0001111111110101#16 = .rsvdF5 7 7 7 := by decide
-- 000 001 010 011 0110 and 0111 (R57)
theorem test_decode_f6_7 : decode 0b0000010100110110#16 = .rsvdF6_7 1 2 3 6 ∧
    decode 0b0000010100110111#16 = .rsvdF6_7 1 2 3 7 := by decide
-- 000 001 010 011 1001 (R57)
theorem test_decode_f9 : decode 0b0000010100111001#16 = .rsvdF9 1 2 3 := by decide
-- 000 001 010 011 1010 and 1011 (R57)
theorem test_decode_f10_11 : decode 0b0000010100111010#16 = .rsvdF10_11 1 2 3 10 ∧
    decode 0b0000010100111011#16 = .rsvdF10_11 1 2 3 11 := by decide
-- 000 001 010 011 1100 and 1111 (R57)
theorem test_decode_f12_15 : decode 0b0000010100111100#16 = .rsvdF12_15 1 2 3 12 ∧
    decode 0b0000010100111111#16 = .rsvdF12_15 1 2 3 15 := by decide
theorem test_encode_slti : encode (.slti 1 2 0x7F) = 0xE57F#16 := by decide
theorem test_table_word : decodeTableWord 16 0x6010 = some (.jal 16) := by decide

/-! ### One step -/

/-- A state after reset, with a pc, some registers, memory and a configuration. -/
def st (pc : Word) (regs : List (RegIdx × Word)) (mem : Memory) (c : CacheConfig) : State :=
  regs.foldl (fun s r => s.writeReg r.1 r.2)
    { State.reset with
      pc := pc, mem := mem, config := c, rows1 := emptyRows1 c, rows2 := emptyRows2 c }

/-- A state whose next instruction is the given word, with no cache. -/
def at_ (pc w : Word) (regs : List (RegIdx × Word)) : State :=
  (st pc regs [] .none).memWrite (maskAddr pc) w

/-- What one step answers, as the value of a reading of its next state. -/
def after {α : Type} (f : State → α) (s : State) : Option α :=
  match step s with
  | .next t => some (f t)
  | .fault _ => none
  | .refused _ => none

-- VA1, VA3
theorem test_add_wraps : after (fun t => (t.reg 3, t.pc)) (at_ 0x10 0x0530 [(1, 0xFFFF), (2, 1)]) =
    some (0, 0x11) := by decide
theorem test_add_discards : after (fun t => (t.reg 0, t.pc)) (at_ 0x10 0x0500 [(1, 5), (2, 3)]) =
    some (0, 0x11) := by decide
-- VA5, VA6
theorem test_sub_borrow : after (·.reg 3) (at_ 0x10 0x0531 [(1, 0), (2, 1)]) =
    some 0xFFFF := by decide
theorem test_sub_order : after (·.reg 3) (at_ 0x10 0x0531 [(1, 3), (2, 5)]) =
    some 0xFFFE := by decide
-- VA9
theorem test_or : after (·.reg 3) (at_ 0x10 0x0532 [(1, 0x00F0), (2, 0x0F0F)]) =
    some 0x0FFF := by decide
-- VA11
theorem test_and : after (·.reg 3) (at_ 0x10 0x0533 [(1, 0x00F0), (2, 0x0FFF)]) =
    some 0x00F0 := by decide
-- VA14, VA16
theorem test_slt_unsigned : after (·.reg 3) (at_ 0x10 0x08B4 [(1, 1), (2, 0xFFFF)]) =
    some 0 := by decide
theorem test_slt_high_bit : after (·.reg 3) (at_ 0x10 0x0534 [(1, 0x7FFF), (2, 0x8000)]) =
    some 1 := by decide
-- VI3, VI5
theorem test_addi_negative : after (·.reg 1) (at_ 0x10 0x28C0 [(2, 0x40)]) = some 0 := by decide
theorem test_addi_in_place : after (·.reg 1) (at_ 0x10 0x2481 [(1, 0xFFFF)]) =
    some 0 := by decide
-- VI7, VI14
theorem test_slti_below : after (·.reg 2) (at_ 0x10 0xE57F [(1, 0x7E)]) = some 1 := by decide
theorem test_slti_zero_extends : after (·.reg 2) (at_ 0x10 0xE57F [(1, 0x80), (2, 5)]) =
    some 0 := by decide
-- VM4, VM7
theorem test_lw_wraps : after (·.reg 2) (st 0x20 [] [(0x20, 0x817F), (0x1FFF, 0x2222)] .none) =
    some 0x2222 := by decide
theorem test_lw_base_is_dst :
    after (·.reg 1) (st 0x20 [(1, 0x30)] [(0x20, 0x8480), (0x30, 0x4444)] .none) =
      some 0x4444 := by decide
-- VM12, VM14
theorem test_sw_masks_address : after (·.memRead 0x10) (at_ 0x20 0xA480 [(1, 0x2010)]) =
    some 0x2010 := by decide
theorem test_sw_over_itself :
    after (fun t => (t.memRead 0x20, t.pc, t.mem)) (at_ 0x20 0xA500 [(1, 0x20), (2, 0)]) =
      some (0, 0x21, []) := by decide
-- VC3, VC5
theorem test_j_elsewhere : after (fun t => (t.pc, t.halted)) (at_ 2 0x4003 []) =
    some (3, false) := by decide
theorem test_j_self_at_top : after (fun t => (t.pc, t.halted)) (at_ 0x1FFF 0x5FFF []) =
    some (0x1FFF, true) := by decide
-- VC7, VC9
theorem test_jal_link_not_masked : after (fun t => (t.reg 7, t.pc)) (at_ 0x1FFF 0x6000 []) =
    some (0x2000, 0) := by decide
theorem test_jal_never_halts : after (fun t => (t.reg 7, t.halted)) (at_ 4 0x6004 []) =
    some (5, false) := by decide
-- VC11, VC13
theorem test_jr_unmasked : after (·.pc) (at_ 0 0x0408 [(1, 0xABCD)]) = some 0xABCD := by decide
theorem test_jr_ignores_fields :
    after (fun t => (t.pc, t.reg 6)) (at_ 0 0x06E8 [(1, 0x44), (5, 1), (6, 2)]) =
      some (0x44, 2) := by decide
-- VC16, VC18
theorem test_jeq_not_taken : after (·.pc) (at_ 2 0xC502 [(1, 7), (2, 8)]) = some 3 := by decide
theorem test_jeq_below_zero : after (·.pc) (at_ 0 0xC07E []) = some 0xFFFF := by decide
-- VR1
theorem test_reserved_are_no_ops :
    [0x1FF5#16, 0x1FF6#16, 0x1FF9#16, 0x1FFB#16, 0x1FFF#16].map (fun w =>
      after (fun t => (t.reg 7, t.pc)) (at_ 0x10 w [(7, 0x55)])) =
      List.replicate 5 (some (0x55, 0x11)) := by decide
-- R79: a step request of a halted machine
theorem test_halted : after (·.pc) ((at_ 0x10 0x0530 []).setHalted true) = some 0x10 := by decide

/-! ### The cache model -/

-- VM2
theorem test_lw_discarded_still_accesses :
    after (fun t => (t.reg 0, t.events, t.rows1))
      (st 0x20 [(1, 0x10)] [(0x13, 0xBEEF), (0x20, 0x8403)] (.one ⟨8, 2, 2⟩)) =
    some (0, [⟨.l1, .miss, 0x20, 0x13, 1⟩], [[], [4]]) := by decide
-- VK3, VK5
theorem test_lru_not_fifo : touch 2 (touch 2 (touch 2 (touch 2 [] 10) 11) 10) 12 = [10, 12] := by
  decide
theorem test_touch_full_row_no_duplicate : touch 2 [10, 11] 10 = [11, 10] := by decide
-- VK11: three rows, not a power of two
theorem test_decompose : (rowOf ⟨12, 1, 4⟩ 0x1FFF, tagOf ⟨12, 1, 4⟩ 0x1FFF) = (1, 682) := by decide
-- P6 step 5: the store gives both events, L2 holds the tag already
theorem test_sw_both_levels :
    after (fun t => (t.events, t.rows1, t.rows2))
      { st 4 [] [(4, 0xA0A1)] (.two ⟨2, 1, 1⟩ ⟨8, 2, 2⟩) with
        rows1 := [[16], []], rows2 := [[8], [8]] } =
    some ([⟨.l1, .sw, 4, 0x21, 1⟩, ⟨.l2, .sw, 4, 0x21, 0⟩], [[16], [16]], [[8], [8]]) := by decide
-- P6 step 4: L1 miss, L2 hit
theorem test_lw_miss_then_hit :
    after (fun t => (t.events, t.rows1, t.rows2))
      { st 3 [] [(3, 0x80A0)] (.two ⟨2, 1, 1⟩ ⟨8, 2, 2⟩) with
        rows1 := [[17], []], rows2 := [[8], [8]] } =
    some ([⟨.l1, .miss, 3, 0x20, 0⟩, ⟨.l2, .hit, 3, 0x20, 0⟩], [[16], []], [[8], [8]]) := by decide

/-! ### Witnesses: a state and operands that meet a statement's hypotheses together -/

/-- Two caches, a load at the program counter whose tag neither holds. -/
def twoLevel : State := st 3 [] [(3, 0x80A0)] (.two ⟨2, 1, 1⟩ ⟨8, 2, 2⟩)

theorem witness_Inv_reset : Inv State.reset :=
  ⟨Memory.nil_wf, rfl, rfl, ⟨rfl, rfl⟩, fun e he => by cases he⟩
theorem witness_Inv_twoLevel : Inv twoLevel :=
  ⟨by decide, by decide, by decide, ⟨⟨by decide, by decide⟩, ⟨by decide, by decide⟩⟩,
    fun e he => by cases he⟩

theorem witness_ResetSatisfiesInvariant : legalConfig twoLevel.config = true := by decide
theorem witness_HostTransactions_configure :
    ∃ t, State.reset.configure (.two ⟨2, 1, 1⟩ ⟨8, 2, 2⟩) false = .next t := ⟨_, rfl⟩
theorem witness_HostTransactions_load :
    Inv State.reset ∧ ∃ t, State.reset.loadImage [0x4000] = .next t := ⟨witness_Inv_reset, _, rfl⟩
theorem witness_ImageLoad_fits : (List.replicate 8192 (0x4000 : Word)).length ≤ 8192 :=
  le_of_eq List.length_replicate
theorem witness_ImageLoad_too_long : 8192 < (List.replicate 8193 (0x4000 : Word)).length :=
  lt_of_lt_of_eq (by decide) List.length_replicate.symm
theorem witness_IllegalConfigurations :
    legalConfig (.one ⟨6, 2, 2⟩) = false ∧
      legalConfig { State.reset with config := .two ⟨8, 2, 2⟩ ⟨2, 2, 2⟩ }.config = false := by decide
-- one row (R122: fully associative), capacity no power of two, and L2 smaller than L1 (R121)
theorem witness_LegalConfigurations : legalGeometry ⟨4, 2, 2⟩ = true ∧ legalGeometry ⟨24, 1, 4⟩ = true ∧
    legalConfig .none = true ∧ legalConfig (.one ⟨4, 2, 2⟩) = true ∧
    legalConfig (.two ⟨24, 1, 4⟩ ⟨4, 2, 2⟩) = true := by decide
theorem witness_StepKeepsInvariant :
    Inv twoLevel ∧ ∃ t, step twoLevel = .next t ∧ t.events.length = 2 :=
  ⟨witness_Inv_twoLevel, _, rfl, by decide⟩
theorem witness_RegisterWrite : (7#3 : RegIdx) ≠ 0#3 := by decide
theorem witness_RegisterDiscard : destReg (.lw 1 0 3) = some 0#3 ∧ destReg (.add 1 2 0) = some 0#3 := by
  decide
theorem witness_RegisterFrame : (∃ t, exec (.jal 16) State.reset = .next t) ∧
    destReg (.jal 16) ≠ some 6 := ⟨⟨_, rfl⟩, by decide⟩
theorem witness_RegisterReads :
    State.reset.writeReg 5 1 = State.reset.setRegs (State.reset.writeReg 5 1).regs ∧
    (∀ r ∈ sourceRegs (.add 1 2 3), (State.reset.writeReg 5 1).reg r = State.reset.reg r) ∧
    (∃ t, exec (.add 1 2 3) State.reset = .next t) ∧
    ∃ t, exec (.add 1 2 3) (State.reset.writeReg 5 1) = .next t :=
  ⟨rfl, by decide, ⟨_, rfl⟩, ⟨_, rfl⟩⟩
theorem witness_nonzero_destination : (1#3 : RegIdx) ≠ 0#3 ∧ (7#3 : RegIdx) ≠ 0#3 := by decide
theorem witness_MemoryWrite :
    (∃ t, exec (.sw 0 2 0x7F) State.reset = .next t) ∧ (0#13 : MemIndex) ≠ maskAddr 0xFFFF ∧
      maskAddr 0xFFFF = effectiveAddress State.reset 0 0x7F := ⟨⟨_, rfl⟩, by decide, by decide⟩
theorem witness_Canonical : Memory.wf [(0, 1), (8191, 2)] ∧
    ∀ k, Memory.read [(0, 1), (8191, 2)] k = Memory.read [(0, 1), (8191, 2)] k :=
  ⟨by decide, fun _ => rfl⟩
theorem witness_OnlyStores : ∃ t, step (at_ 0x20 0xA480 [(1, 0x2010)]) = .next t ∧
    t.memRead 0x10 ≠ (at_ 0x20 0xA480 [(1, 0x2010)]).memRead 0x10 := ⟨_, rfl, by decide⟩
theorem witness_DecodeOfEncode : Instr.wf (.rsvdF12_15 1 2 3 15) = true := by decide
theorem witness_SignedUse : (1#3 : RegIdx) ≠ 0#3 ∧ State.reset.reg 1 = State.reset.reg 2 := by decide
theorem witness_classR_words :
    (0x0530#16).extractLsb' 13 3 = 0#3 ∧ (0x0530#16).extractLsb' 0 4 = 0#4 ∧
    (0x0531#16).extractLsb' 13 3 = 0#3 ∧ (0x0531#16).extractLsb' 0 4 = 1#4 ∧
    (0x0532#16).extractLsb' 13 3 = 0#3 ∧ (0x0532#16).extractLsb' 0 4 = 2#4 ∧
    (0x0533#16).extractLsb' 13 3 = 0#3 ∧ (0x0533#16).extractLsb' 0 4 = 3#4 ∧
    (0x0534#16).extractLsb' 13 3 = 0#3 ∧ (0x0534#16).extractLsb' 0 4 = 4#4 ∧
    (0x06E8#16).extractLsb' 13 3 = 0#3 ∧ (0x06E8#16).extractLsb' 0 4 = 8#4 := by decide
theorem witness_classI_J_words :
    (0x2085#16).extractLsb' 13 3 = 1#3 ∧ (0x4003#16).extractLsb' 13 3 = 2#3 ∧
    (0x6010#16).extractLsb' 13 3 = 3#3 ∧ (0x8503#16).extractLsb' 13 3 = 4#3 ∧
    (0xA57F#16).extractLsb' 13 3 = 5#3 ∧ (0xC502#16).extractLsb' 13 3 = 6#3 ∧
    (0xE57F#16).extractLsb' 13 3 = 7#3 := by decide
theorem witness_EffectiveAddress :
    (∃ t, exec (.sw 1 2 0x7F) twoLevel = .next t ∧ t.events ≠ []) ∧
      (∃ t, exec (.lw 1 2 0x7F) twoLevel = .next t ∧ t.events ≠ []) ∧ (1#3 : RegIdx) ≠ 2#3 :=
  ⟨⟨_, rfl, by decide⟩, ⟨_, rfl, by decide⟩, by decide⟩
theorem witness_no_cache : State.reset.config = .none := rfl
theorem witness_Reserved : State.reset.strictDecode = false ∧
    isReserved (.rsvdF6_7 7 7 7 6) = true ∧
    { State.reset with strictDecode := true }.strictDecode = true := by decide
theorem witness_StepRuns : legalConfig (at_ 0x10 0x0530 []).config = true ∧
    (at_ 0x10 0x0530 []).halted = false ∧ Instr.wf (.add 1 2 3) = true ∧
    (at_ 0x10 0x0530 []).memRead (maskAddr (at_ 0x10 0x0530 []).pc) = encode (.add 1 2 3) := by decide
theorem witness_Placed : legalConfig twoLevel.config = true ∧ Instr.wf (.rsvdF6_7 0 0 0 7) = true ∧
    (0#13 : MemIndex) ≠ maskAddr twoLevel.pc := by decide
theorem witness_Halted : legalConfig twoLevel.config = true ∧ (twoLevel.setHalted true).halted = true := by
  decide
theorem witness_OnlyASelfJump :
    (∃ t, step (at_ 3 0x4003 []) = .next t ∧ (at_ 3 0x4003 []).halted = false ∧ t.halted = true) ∧
      ∃ t, step (twoLevel.setHalted true) = .next t := ⟨⟨_, rfl, by decide, by decide⟩, ⟨_, rfl⟩⟩
-- VC4, and the least pc past the end of memory
theorem witness_SelfJumpPast : legalConfig (at_ 0x2003 0x4003 []).config = true ∧
    (at_ 0x2003 0x4003 []).halted = false ∧ decode (at_ 0x2003 0x4003 []).fetch = .j 3 ∧
    8192 ≤ (at_ 0x2003 0x4003 []).pc.toNat ∧ (3#13 : Imm13) = maskAddr (at_ 0x2003 0x4003 []).pc ∧
    decode (at_ 0x2000 0x4000 []).fetch = .j 0 ∧ 8192 ≤ (at_ 0x2000 0x4000 []).pc.toNat ∧
    (0#13 : Imm13) = maskAddr (at_ 0x2000 0x4000 []).pc := by decide
theorem witness_Lenient : legalConfig twoLevel.config = true ∧ twoLevel.strictDecode = false := by decide
theorem witness_EveryStop_fault :
    step { at_ 0 0x0005 [] with strictDecode := true } = .fault .illegalInstruction := rfl
theorem witness_EveryStop_refusal :
    step { State.reset with config := .one ⟨6, 2, 2⟩ } = .refused .illegalConfiguration := rfl
theorem witness_Parameters : ∃ t, Host.Core.run core 2 twoLevel = .next t := ⟨_, rfl⟩
theorem witness_RowAndTag : legalGeometry ⟨8, 2, 2⟩ = true ∧ (⟨8, 2, 2⟩ : Geometry).block = 2 ^ 1 ∧
    rowCount ⟨8, 2, 2⟩ = 2 ^ 1 ∧ legalGeometry ⟨12, 1, 4⟩ = true := by decide
theorem witness_Touch : 1 ≤ 2 ∧ [10, 11].Nodup ∧ [10, 11].length ≤ 2 ∧ 10 ∈ [10, 11] ∧
    12 ∉ [10, 11] ∧ [10, 11].length = 2 ∧ 12 ∉ [10] ∧ [10].length < 2 := by decide
theorem witness_Access : legalGeometry ⟨8, 2, 2⟩ = true ∧ RowsWf ⟨8, 2, 2⟩ [[0, 2047], []] ∧
    tagOf ⟨8, 2, 2⟩ 0 ∈ [0, 2047] ∧
    (0#13 : MemIndex).toNat / 2 = (1#13 : MemIndex).toNat / 2 := by
  refine ⟨by decide, ⟨by decide, by decide⟩, by decide, by decide⟩
theorem witness_LoadAccess_one : (st 0 [] [] (.one ⟨8, 2, 2⟩)).config = .one ⟨8, 2, 2⟩ := by decide
theorem witness_LoadAccess_two :
    twoLevel.config = .two ⟨2, 1, 1⟩ ⟨8, 2, 2⟩ ∧
    (readAccess ⟨2, 1, 1⟩ twoLevel.rows1 0x20).kind = .miss ∧
    (readAccess ⟨2, 1, 1⟩ [[16], []] 0x20).kind = .hit := by decide
theorem witness_Events : ∃ t u, exec (.lw 0 1 0x20) twoLevel = .next t ∧ t.events.length = 2 ∧
    exec (.sw 0 1 0x20) twoLevel = .next u ∧ u.events.length = 2 :=
  ⟨_, _, rfl, by decide, rfl, by decide⟩
theorem witness_CacheFunction :
    [(⟨false, 0x20, 1⟩ : CacheOp), ⟨true, 0x21, 2⟩].map (fun o => (o.store, o.address)) =
      [(⟨false, 0x20, 7⟩ : CacheOp), ⟨true, 0x21, 8⟩].map (fun o => (o.store, o.address)) := by decide
theorem witness_LevelsIndependent_configs :
    twoLevel.config = .two ⟨2, 1, 1⟩ ⟨8, 2, 2⟩ ∧
    { twoLevel with config := .one ⟨2, 1, 1⟩, rows2 := [] }.config = .one ⟨2, 1, 1⟩ ∧
    { twoLevel with config := .one ⟨2, 1, 1⟩, rows2 := [] }.rows1 = twoLevel.rows1 := by decide
theorem witness_LevelsIndependent_step :
    ∃ t, step twoLevel = .next t ∧ t.rows2 ≠ twoLevel.rows2 := ⟨_, rfl, by decide⟩
theorem witness_Lru : (10 : Nat) ≠ 11 ∧ (10 : Nat) ≠ 12 ∧ (11 : Nat) ≠ 12 := by decide
theorem witness_CachesNeverChange : legalConfig twoLevel.config = true ∧
    legalConfig (st 3 [] [(3, 0x80A0)] .none).config = true ∧
    SameProgramView twoLevel (st 3 [] [(3, 0x80A0)] .none) :=
  ⟨by decide, by decide, ⟨fun _ => rfl, rfl, rfl, fun _ => rfl, rfl⟩⟩
theorem witness_CachesNeverChange_fault :
    Host.Core.run core 1 { at_ 0 0x0005 [] with strictDecode := true } =
      .fault .illegalInstruction := rfl

end Sys2Proof.Tests
end

