-- ==== Sys2Proof/Proofs/State.lean ====
section
/-! PROOFS. The rules of 10_state.md: the register a write reaches, what an executed instruction can have
done, and the host's transactions. -/

namespace Sys2Proof.Machine

open Sys2Proof

/-! ### Registers under the state's operations -/

@[simp] theorem setPc_reg (s : State) (t : Word) (r : RegIdx) : (s.setPc t).reg r = s.reg r := rfl
@[simp] theorem setHalted_reg (s : State) (h : Bool) (r : RegIdx) :
    (s.setHalted h).reg r = s.reg r := rfl
@[simp] theorem setMem_reg (s : State) (m : Memory) (r : RegIdx) :
    (s.setMem m).reg r = s.reg r := rfl
@[simp] theorem memWrite_reg (s : State) (a : MemIndex) (v : Word) (r : RegIdx) :
    (s.memWrite a v).reg r = s.reg r := rfl
@[simp] theorem advance_reg (s : State) (r : RegIdx) : s.advance.reg r = s.reg r := rfl

/-- A write of register 0 does not happen (R12). -/
@[simp] theorem writeReg_zero (s : State) (v : Word) : s.writeReg 0#3 v = s := rfl

/-- A register write leaves every other register (R12). -/
theorem reg_writeReg_of_ne {d r : RegIdx} (h : r ≠ d) (s : State) (v : Word) :
    (s.writeReg d v).reg r = s.reg r := by
  by_cases h0 : r = 0#3
  · simp [h0]
  · simp [reg_writeReg, h0, h]

/-- A write of registers 1 to 7 stores the value (R12). -/
theorem reg_writeReg_self {d : RegIdx} (h : d ≠ 0#3) (s : State) (v : Word) :
    (s.writeReg d v).reg d = v := by
  simp [reg_writeReg, h]

/-- What a register reads after it is written is the same from every state. -/
theorem reg_writeReg_congr (s t : State) (d : RegIdx) (v : Word) :
    (t.writeReg d v).reg d = (s.writeReg d v).reg d := by
  simp [reg_writeReg]

/-! ### What an instruction that answers a next state has done -/

/-- The register and the value of an instruction that only computes a register (R84 to R96). -/
def aluWrite : Instr → State → Option (RegIdx × Word)
  | .add a b d, s => some (d, s.reg a + s.reg b)
  | .sub a b d, s => some (d, s.reg a - s.reg b)
  | .or a b d, s => some (d, s.reg a ||| s.reg b)
  | .and a b d, s => some (d, s.reg a &&& s.reg b)
  | .slt a b d, s => some (d, ltBit (s.reg a) (s.reg b))
  | .addi a d f, s => some (d, s.reg a + sext16 f)
  | .slti a d f, s => some (d, ltBit (s.reg a) (zext16 f))
  | _, _ => none

/-- An instruction that only computes a register writes it and advances, from every state. -/
theorem exec_of_aluWrite {i : Instr} {s : State} {d : RegIdx} {v : Word}
    (h : aluWrite i s = some (d, v)) : exec i s = .next (s.writeAndAdvance d v) := by
  cases i <;> cases h <;> rfl

/-- The register computed is the destination. -/
theorem destReg_of_aluWrite {i : Instr} {s : State} {d : RegIdx} {v : Word}
    (h : aluWrite i s = some (d, v)) : destReg i = some d := by
  cases i <;> cases h <;> rfl

/-- What an instruction computes depends on its source registers alone (R13). -/
theorem aluWrite_congr {i : Instr} {s t : State} (h : ∀ r ∈ sourceRegs i, t.reg r = s.reg r) :
    aluWrite i t = aluWrite i s := by
  cases i with
  | add a b | sub a b | or a b | and a b | slt a b =>
    simp [aluWrite, h a (by simp [sourceRegs]), h b (by simp [sourceRegs])]
  | addi a | slti a => simp [aluWrite, h a (by simp [sourceRegs])]
  | _ => rfl

/-- The instructions with a destination: those that only compute it, `lw` and `jal` (R13). -/
theorem destReg_eq_some {i : Instr} {d : RegIdx} (h : destReg i = some d) (s : State) :
    (∃ v, aluWrite i s = some (d, v)) ∨ (∃ src imm7, i = .lw src d imm7) ∨
      ∃ imm13, i = .jal imm13 ∧ d = Config.linkReg := by
  cases i with
  | add | sub | or | and | slt | addi | slti => cases h; exact .inl ⟨_, rfl⟩
  | lw src _ imm7 => cases h; exact .inr (.inl ⟨src, imm7, rfl⟩)
  | jal imm13 => cases h; exact .inr (.inr ⟨imm13, rfl, rfl⟩)
  | _ => cases h

/-- `Executes s i t`: from `s` the instruction `i` answers the next state `t`, one case for each
kind of instruction. -/
inductive Executes (s : State) : Instr → State → Prop
  | alu {i : Instr} {d : RegIdx} {v : Word} (h : aluWrite i s = some (d, v)) :
      Executes s i (s.writeAndAdvance d v)
  | jr (srcA srcB dst : RegIdx) : Executes s (.jr srcA srcB dst) (s.setPc (s.reg srcA))
  | j (imm13 : Imm13) :
      Executes s (.j imm13) ((s.haltIfSelf (jumpTarget imm13)).setPc (jumpTarget imm13))
  | jal (imm13 : Imm13) : Executes s (.jal imm13)
      ((s.writeReg Config.linkReg (linkValue s)).setPc (jumpTarget imm13))
  | lw (src dst : RegIdx) (imm7 : Imm7) : Executes s (.lw src dst imm7)
      (((s.writeReg dst (s.memRead (effectiveAddress s src imm7))).cacheRead
        (effectiveAddress s src imm7) s.pc).advance)
  | sw (src dst : RegIdx) (imm7 : Imm7) : Executes s (.sw src dst imm7)
      (((s.memWrite (effectiveAddress s src imm7) (s.reg dst)).cacheWrite
        (effectiveAddress s src imm7) s.pc).advance)
  | jeq (src dst : RegIdx) (imm7 : Imm7) : Executes s (.jeq src dst imm7)
      (s.setPc (if s.reg src = s.reg dst then branchTarget s imm7 else s.pc + 1#16))
  | reserved {i : Instr} (h : isReserved i = true) (lenient : s.strictDecode = false) :
      Executes s i s.advance

/-- A reserved word is the decoder's UnknownOpcode case (R57, R76). -/
theorem exec_of_isReserved {i : Instr} (h : isReserved i = true) (s : State) :
    exec i s = unknownOpcode s := by
  cases i <;> cases h <;> rfl

/-- A reserved word has no destination (R13). -/
theorem destReg_of_isReserved {i : Instr} (h : isReserved i = true) : destReg i = none := by
  cases i <;> cases h <;> rfl

/-- A `jeq` sets the program counter to one of two targets (R113). -/
theorem exec_jeq (src dst : RegIdx) (imm7 : Imm7) (s : State) : exec (.jeq src dst imm7) s =
    .next (s.setPc (if s.reg src = s.reg dst then branchTarget s imm7 else s.pc + 1#16)) := by
  show execJeq src dst imm7 s = _
  unfold execJeq State.advance
  split <;> rfl

/-- `Executes` says of every instruction exactly when it answers a next state, and which. -/
theorem exec_eq_next_iff {i : Instr} {s t : State} : exec i s = .next t ↔ Executes s i t := by
  constructor
  · intro h
    cases i with
    | add | sub | or | and | slt | addi | slti => cases h; exact .alu rfl
    | jr | j | jal | lw | sw => cases h; constructor
    | jeq => rw [exec_jeq] at h; cases h; constructor
    | rsvdF5 | rsvdF6_7 | rsvdF9 | rsvdF10_11 | rsvdF12_15 =>
      obtain ⟨lenient, rfl⟩ := unknownOpcode_next h
      exact .reserved rfl lenient
  · intro h
    cases h with
    | alu h => exact exec_of_aluWrite h
    | jr | j | jal | lw | sw => rfl
    | jeq => exact exec_jeq _ _ _ _
    | reserved h lenient => rw [exec_of_isReserved h, unknownOpcode, lenient]; rfl

/-! ### Registers an instruction writes and reads (R13) -/

/-- No instruction changes a register but its destination. -/
theorem exec_reg_of_ne_dest {i : Instr} {s t : State} (h : exec i s = .next t) {r : RegIdx}
    (hr : destReg i ≠ some r) : t.reg r = s.reg r := by
  cases exec_eq_next_iff.1 h with
  | @alu _ d v ha =>
    have hd : r ≠ d := by rintro rfl; exact hr (destReg_of_aluWrite ha)
    exact (writeAndAdvance_wroteReg s d v).others r hd
  | j => simp [haltIfSelf_eq]
  | jal | lw => simpa using reg_writeReg_of_ne (fun e => hr (congrArg some e.symm)) s _
  | jr | sw | jeq | reserved => simp

/-- Two states with the same fields but for the register file. -/
structure SameButRegs (s t : State) : Prop where
  pc : t.pc = s.pc
  halted : t.halted = s.halted
  mem : t.mem = s.mem
  params : SameParams s t
  trace : SameTrace s t

/-- Having the same fields but for the registers is being the other state with one's own
registers. -/
theorem sameButRegs_iff {s t : State} : SameButRegs s t ↔ t = s.setRegs t.regs := by
  constructor
  · rintro ⟨hpc, hhalted, hmem, ⟨hconfig, hstrict⟩, hrows1, hrows2, hevents⟩
    cases s; cases t
    simp_all [State.setRegs]
  · intro h
    rw [h]
    exact ⟨rfl, rfl, rfl, ⟨rfl, rfl⟩, rfl, rfl, rfl⟩

namespace SameButRegs

variable {s t : State} (h : SameButRegs s t)
include h

theorem setPc (p : Word) : SameButRegs (s.setPc p) (t.setPc p) :=
  ⟨rfl, h.halted, h.mem, h.params, h.trace⟩

theorem advance : SameButRegs s.advance t.advance := by
  simpa [State.advance, h.pc] using h.setPc (s.pc + 1#16)

theorem setHalted (b : Bool) : SameButRegs (s.setHalted b) (t.setHalted b) :=
  ⟨h.pc, rfl, h.mem, h.params, h.trace⟩

theorem haltIfSelf (p : Word) : SameButRegs (s.haltIfSelf p) (t.haltIfSelf p) := by
  simpa [haltIfSelf_eq, h.pc, h.halted] using h.setHalted (s.halted || decide (p = s.pc))

theorem writeReg (d : RegIdx) (v w : Word) : SameButRegs (s.writeReg d v) (t.writeReg d w) := by
  obtain ⟨hpc, hhalted, hmem, hparams, htrace⟩ := h
  exact ⟨by simpa, by simpa, by simpa, by simpa [SameParams], by simpa [SameTrace]⟩

theorem branchTarget (f : Imm7) : branchTarget t f = branchTarget s f :=
  congrArg (· + 1#16 + sext16 f) h.pc

theorem memRead (a : MemIndex) : t.memRead a = s.memRead a := memRead_congr h.mem a

theorem memWrite (a : MemIndex) (v : Word) : SameButRegs (s.memWrite a v) (t.memWrite a v) :=
  ⟨h.pc, h.halted, by simp [State.memWrite, h.mem], h.params, h.trace⟩

theorem cacheRead (a : MemIndex) (p : Word) :
    SameButRegs (s.cacheRead a p) (t.cacheRead a p) := by
  obtain ⟨hpc, hhalted, hmem, hparams, htrace⟩ := h
  exact ⟨by simpa, by simpa, by simpa, by simpa [SameParams],
    cacheRead_trace hparams.1 htrace a p⟩

theorem cacheWrite (a : MemIndex) (p : Word) :
    SameButRegs (s.cacheWrite a p) (t.cacheWrite a p) := by
  obtain ⟨hpc, hhalted, hmem, hparams, htrace⟩ := h
  exact ⟨by simpa, by simpa, by simpa, by simpa [SameParams],
    cacheWrite_trace hparams.1 htrace a p⟩

end SameButRegs

/-- The effective address depends on the base register alone (R100). -/
theorem effectiveAddress_congr {s t : State} {src : RegIdx} (h : t.reg src = s.reg src)
    (imm7 : Imm7) : effectiveAddress t src imm7 = effectiveAddress s src imm7 := by
  rw [effectiveAddress, h, effectiveAddress]

/-- From two states alike but for registers the instruction does not read, it goes to two states
alike but for registers, its destination equal in both. -/
theorem exec_sameButRegs {i : Instr} {s s' t t' : State} (hs : SameButRegs s s')
    (hsrc : ∀ r ∈ sourceRegs i, s'.reg r = s.reg r) (h : exec i s = .next t)
    (h' : exec i s' = .next t') :
    SameButRegs t t' ∧ ∀ d, destReg i = some d → t'.reg d = t.reg d := by
  cases exec_eq_next_iff.1 h with
  | @alu _ d v ha =>
    rw [exec_of_aluWrite ((aluWrite_congr hsrc).trans ha)] at h'
    cases h'
    refine ⟨(hs.writeReg d v v).advance, fun e he => ?_⟩
    obtain rfl : d = e := by simpa [destReg_of_aluWrite ha] using he
    exact reg_writeReg_congr s s' d v
  | jr srcA =>
    cases h'
    rw [hsrc srcA (by simp [sourceRegs])]
    exact ⟨hs.setPc _, nofun⟩
  | j imm13 => cases h'; exact ⟨(hs.haltIfSelf _).setPc _, nofun⟩
  | jal imm13 =>
    cases h'
    refine ⟨(hs.writeReg _ _ _).setPc _, ?_⟩
    rintro _ ⟨⟩
    simpa [linkValue, hs.pc] using reg_writeReg_congr s s' Config.linkReg (linkValue s)
  | lw src dst imm7 =>
    cases h'
    rw [effectiveAddress_congr (hsrc src (by simp [sourceRegs])), hs.pc, hs.memRead]
    refine ⟨((hs.writeReg _ _ _).cacheRead _ _).advance, ?_⟩
    rintro _ ⟨⟩
    simpa using reg_writeReg_congr s s' dst _
  | sw src dst imm7 =>
    cases h'
    rw [effectiveAddress_congr (hsrc src (by simp [sourceRegs])), hs.pc,
      hsrc dst (by simp [sourceRegs])]
    exact ⟨((hs.memWrite _ _).cacheWrite _ _).advance, nofun⟩
  | jeq src dst imm7 =>
    rw [exec_jeq] at h'
    cases h'
    rw [hsrc src (by simp [sourceRegs]), hsrc dst (by simp [sourceRegs]), hs.branchTarget, hs.pc]
    exact ⟨hs.setPc _, nofun⟩
  | reserved hi =>
    rw [exec_of_isReserved hi] at h'
    obtain ⟨-, rfl⟩ := unknownOpcode_next h'
    exact ⟨hs.advance, fun d hd => by simp [destReg_of_isReserved hi] at hd⟩

/-- Settles O9: `exec_reg_of_ne_dest` for the registers written, `exec_sameButRegs` for those
read. -/
theorem instructionsUseOnlyTheirRegisters : Obligations.InstructionsUseOnlyTheirRegisters := by
  refine ⟨fun i s t h r hr => exec_reg_of_ne_dest h hr, fun i s s' t t' hs hsrc h h' => ?_⟩
  obtain ⟨ht, hd⟩ := exec_sameButRegs (sameButRegs_iff.2 hs) hsrc h h'
  exact ⟨sameButRegs_iff.1 ht, hd⟩

/-! ### The parameters of a run (R5, R19) -/

/-- No instruction changes the parameters of the run. -/
theorem exec_sameParams {i : Instr} {s t : State} (h : exec i s = .next t) : SameParams s t := by
  cases exec_eq_next_iff.1 h with
  | @alu _ d v => exact (writeAndAdvance_wroteReg s d v).params
  | j => simp [SameParams, haltIfSelf_eq]
  | sw => simp [SameParams, State.memWrite]
  | jr | jal | lw | jeq | reserved => simp [SameParams]

/-- No step changes the parameters of the run. -/
theorem step_sameParams {s t : State} (h : step s = .next t) : SameParams s t := by
  obtain ⟨-, ⟨-, rfl⟩ | ⟨-, h⟩⟩ := step_next h
  · exact ⟨rfl, rfl⟩
  · exact exec_sameParams h

theorem SameParams.trans {s t u : State} (h : SameParams s t) (h' : SameParams t u) :
    SameParams s u :=
  ⟨h'.1.trans h.1, h'.2.trans h.2⟩

/-- Settles O42, by induction on the run: every step keeps the parameters. -/
theorem parametersNeverChange : Obligations.ParametersNeverChange := fun k s t h =>
  run_induction (P := SameParams s) (fun _ _ hs hstep => hs.trans (step_sameParams hstep))
    k s t ⟨rfl, rfl⟩ h

/-! ### Register write and discard (R12) -/

/-- A register computed and then discarded leaves every register as it was. -/
theorem WroteReg.sameRegs_of_zero {s t : State} {v : Word} (h : WroteReg s t 0#3 v) :
    SameRegs s t := by
  intro r
  by_cases hr : r = 0#3
  · simp [hr]
  · exact h.others r hr

/-- A `lw` with destination 0 makes its cache access and advances (R101). -/
theorem exec_lw_zero (src : RegIdx) (imm7 : Imm7) (s : State) : exec (.lw src 0#3 imm7) s =
    .next (s.cacheRead (effectiveAddress s src imm7) s.pc).advance := rfl

/-- An instruction with destination 0 leaves registers and memory and advances. -/
theorem exec_of_destReg_zero {i : Instr} (h : destReg i = some 0#3) (s : State) :
    ∃ t, exec i s = .next t ∧ SameRegs s t ∧ SameMem s t ∧ t.pc = s.pc + 1#16 ∧
      t.halted = s.halted ∧ SameParams s t := by
  obtain ⟨v, ha⟩ | ⟨src, imm7, rfl⟩ | ⟨imm13, -, h0⟩ := destReg_eq_some h s
  · have hw := writeAndAdvance_wroteReg s 0#3 v
    exact ⟨_, exec_of_aluWrite ha, hw.sameRegs_of_zero, hw.mem, hw.pc, hw.halted, hw.params⟩
  · exact ⟨_, exec_lw_zero src imm7 s, fun r => by simp, fun a => memRead_congr (by simp) a,
      by simp, by simp, by simp [SameParams]⟩
  · exact absurd h0 (by decide)

/-- Settles O8, by the rules of a register write and `exec_of_destReg_zero`. -/
theorem registerWriteAndDiscard : Obligations.RegisterWriteAndDiscard := by
  refine ⟨fun s v => ⟨writeReg_zero s v, reg_zero s⟩, fun s i v hi => ?_,
    fun i s h => exec_of_destReg_zero h s,
    fun src imm7 s => ⟨_, exec_lw_zero src imm7 s, rfl, rfl, rfl⟩⟩
  exact ⟨reg_writeReg_self hi s v, fun r hr => reg_writeReg_of_ne hr s v, by simp,
    fun a => memRead_congr (by simp) a, by simp, by simp [SameParams], by simp [SameTrace]⟩

/-! ### The host's transactions (R23, R24, R27) -/

/-- A word of memory after the image load: the image's word where it reaches, the old one
elsewhere (R24). -/
theorem Memory.read_load (m : Memory) (i : Nat) (image : List Word) (k : Nat) :
    (m.load i image).read k =
      if i ≤ k then (image[k - i]?).getD (m.read k) else m.read k := by
  induction image generalizing m i with
  | nil => simp [Memory.load]
  | cons w rest ih =>
    rw [Memory.load, ih, Memory.read_write]
    obtain hk | rfl | hk := lt_trichotomy k i
    · have hk' : ¬ i + 1 ≤ k := by omega
      simp [hk', hk.not_ge, hk.ne]
    · simp
    · have hsub : k - i = k - (i + 1) + 1 := by omega
      simp [hsub, hk.le, hk.ne', Nat.succ_le_of_lt hk]

/-- Settles O4: `Memory.read_load` at index 0 for the words, and the load sets memory alone. -/
theorem imageLoadPlacesTheImage : Obligations.ImageLoadPlacesTheImage := by
  refine ⟨fun s image h => ⟨_, (loadImage_eq_next s _ image).2 ⟨h, rfl⟩, fun a => ?_,
    fun _ => rfl, rfl, rfl, ⟨rfl, rfl⟩, rfl, rfl, rfl⟩, fun s image h => ?_⟩
  · simp [State.memRead, Memory.read_load]
  · exact if_neg (Nat.not_le.2 h)

/-- A cache is created with every row empty (R20). -/
theorem eq_nil_of_mem_emptyRows {g : Geometry} {row : Row} (h : row ∈ emptyRows g) : row = [] :=
  List.eq_of_mem_replicate h

theorem eq_nil_of_mem_emptyRows1 {c : CacheConfig} {row : Row} (h : row ∈ emptyRows1 c) :
    row = [] := by
  cases c with
  | none => cases h
  | one | two => exact eq_nil_of_mem_emptyRows h

theorem eq_nil_of_mem_emptyRows2 {c : CacheConfig} {row : Row} (h : row ∈ emptyRows2 c) :
    row = [] := by
  cases c with
  | none | one => cases h
  | two => exact eq_nil_of_mem_emptyRows h

/-- Every register reads 0 after reset (R28, decision D2). -/
@[simp] theorem hostReset_reg (s : State) (r : RegIdx) : s.hostReset.reg r = 0#16 := by
  simp [State.reg]

/-- Settles O1, by the fields after `hostReset`. -/
theorem resetLeavesTheGivenValues : Obligations.ResetLeavesTheGivenValues :=
  ⟨fun s => ⟨hostReset_reg s, rfl, rfl, fun _ => rfl, ⟨rfl, rfl⟩, rfl, rfl,
    fun _ => eq_nil_of_mem_emptyRows1, fun _ => eq_nil_of_mem_emptyRows2, rfl⟩, rfl, rfl, rfl⟩

/-- The snapshot lists the eight registers in order (R27). -/
theorem snapshot_x_getElem? (s : State) (r : RegIdx) :
    s.snapshot.x[r.toNat]? = some (s.reg r) := by
  have hr : r.toNat < 8 := r.isLt
  simp [State.snapshot, hr]

/-- The snapshot lists the words of memory in order (R27). -/
theorem snapshot_mem_getElem? (s : State) (a : MemIndex) :
    s.snapshot.mem[a.toNat]? = some (s.memRead a) := by
  simp [State.snapshot, State.memRead, memIndex_lt a]

/-- Settles O5, by the snapshot's two lists read at an index. -/
theorem snapshotShowsTheState : Obligations.SnapshotShowsTheState := fun s =>
  ⟨rfl, rfl, by simp [State.snapshot], snapshot_x_getElem? s,
    by simp [State.snapshot, Config.memWords], snapshot_mem_getElem? s⟩

end Sys2Proof.Machine
end

/-! PROOFS. The rules of 20_memory.md: the masked address (R31), what changes memory (R32, R34), the
canonical form of the model, and that the caches change nothing a program can see (R45). -/

namespace Sys2Proof.Machine

open Sys2Proof

/-! ### Addresses and stores (R31, R32, R34) -/

/-- Masking an address is its conjunction with 0x1FFF (R31). -/
theorem maskAddr_toNat_eq_and (a : Word) : (maskAddr a).toNat = (a &&& 0x1FFF#16).toNat := by
  rw [maskAddr_toNat, BitVec.toNat_and]
  exact (Nat.and_two_pow_sub_one_eq_mod a.toNat 13).symm

/-- Two addresses name the same word exactly when they agree modulo 8192 (R31). -/
theorem maskAddr_eq_iff (a b : Word) :
    maskAddr a = maskAddr b ↔ a.toNat % 8192 = b.toNat % 8192 := by
  rw [← memIndex_eq_iff, maskAddr_toNat, maskAddr_toNat]

/-- The word at the address of a `lw` or a `sw`, by its index (R31, R100). -/
theorem memRead_effectiveAddress (s t : State) (src : RegIdx) (imm7 : Imm7) :
    t.memRead (effectiveAddress s src imm7) =
      t.mem.read ((s.reg src + sext16 imm7).toNat % 8192) := by
  rw [State.memRead, effectiveAddress, maskAddr_toNat]

/-- A `lw` with a destination loads the word at its effective address (R101). -/
theorem exec_lw_reg {s t : State} {src dst : RegIdx} {imm7 : Imm7} (hd : dst ≠ 0#3)
    (h : exec (.lw src dst imm7) s = .next t) :
    t.reg dst = s.memRead (effectiveAddress s src imm7) := by
  cases h
  simp [reg_writeReg_self hd]

/-- What a word of memory reads after a `sw`: the stored register at the effective address, the
old word elsewhere (R34, R102). -/
theorem exec_sw_memRead {s t : State} {src dst : RegIdx} {imm7 : Imm7}
    (h : exec (.sw src dst imm7) s = .next t) (b : MemIndex) :
    t.memRead b = if b = effectiveAddress s src imm7 then s.reg dst else s.memRead b := by
  cases h
  rw [← memRead_memWrite]
  exact memRead_congr (by simp) b

/-- Memory is changed by `sw` alone (R32). -/
theorem exec_mem_of_not_sw {i : Instr} {s t : State} (h : exec i s = .next t)
    (hi : ∀ src dst imm7, i ≠ .sw src dst imm7) : t.mem = s.mem := by
  cases exec_eq_next_iff.1 h with
  | sw src dst imm7 => exact absurd rfl (hi src dst imm7)
  | alu => simp [State.writeAndAdvance]
  | j => simp [haltIfSelf_eq]
  | jr | jal | lw | jeq | reserved => simp

/-- Settles O10: `memRead_effectiveAddress` at what `lw` and `sw` leave. -/
theorem addressesAreMasked : Obligations.AddressesAreMasked := by
  refine ⟨fun a => ⟨maskAddr_toNat a, maskAddr_toNat_eq_and a⟩, maskAddr_eq_iff, fun s => ?_,
    fun s src dst imm7 hd => ⟨_, rfl, ?_⟩, fun s src dst imm7 => ⟨_, rfl, ?_⟩⟩
  · rw [State.fetch, State.memRead, maskAddr_toNat]
  · rw [exec_lw_reg hd rfl, memRead_effectiveAddress]
  · rw [← memRead_effectiveAddress, exec_sw_memRead rfl, if_pos rfl]

/-- Settles O11: `memRead_memWrite` for the write, `exec_sw_memRead` for the fetch and the load
after a `sw`. -/
theorem memoryWriteSetsOneWord : Obligations.MemoryWriteSetsOneWord := by
  refine ⟨fun s a v => ⟨?_, fun b hb => ?_, fun _ => rfl, rfl, rfl, ⟨rfl, rfl⟩, rfl, rfl, rfl⟩,
    fun s t src dst imm7 h => ?_⟩
  · rw [memRead_memWrite, if_pos rfl]
  · rw [memRead_memWrite, if_neg hb]
  · have hword : t.memRead (effectiveAddress s src imm7) = s.reg dst := by
      rw [exec_sw_memRead h, if_pos rfl]
    exact ⟨hword, fun p hp => by rw [← hword, ← hp]; rfl⟩

/-- Settles O13: a halted machine and an instruction other than `sw` keep memory, and
`exec_sw_memRead` says which word a `sw` changes. -/
theorem onlyStoresChangeMemory : Obligations.OnlyStoresChangeMemory := by
  intro s t a hstep hne
  obtain ⟨-, ⟨-, rfl⟩ | ⟨-, hexec⟩⟩ := step_next hstep
  · exact absurd rfl hne
  by_cases hsw : ∃ src dst imm7, decode s.fetch = .sw src dst imm7
  · obtain ⟨src, dst, imm7, hi⟩ := hsw
    rw [hi] at hexec
    have hread := exec_sw_memRead hexec a
    have ha : a = effectiveAddress s src imm7 := by
      by_contra ha
      exact hne (hread.trans (if_neg ha))
    exact ⟨src, dst, imm7, hi, ha, hread.trans (if_pos ha)⟩
  · push Not at hsw
    exact absurd (memRead_congr (exec_mem_of_not_sw hexec hsw) a) hne

/-! ### The canonical form of memory -/

/-- A canonical memory lists exactly the words that differ from an unlisted one, each under the
index that reads as it. -/
theorem Memory.mem_iff_read {m : Memory} (hm : m.wf) (k : Nat) (v : Word) :
    (k, v) ∈ m ↔ m.read k = v ∧ v ≠ Config.memReset := by
  induction m with
  | nil => simp only [List.not_mem_nil, Memory.read, false_iff]; exact fun h => h.2 h.1.symm
  | cons c rest ih =>
    obtain ⟨i, x⟩ := c
    obtain ⟨hrising, hcells⟩ := hm
    obtain ⟨hfirst, hrest⟩ := List.pairwise_cons.1 hrising
    by_cases hik : i = k
    · subst hik
      have hx : x ≠ Config.memReset := (hcells (i, x) (by simp)).2
      have hnot : (i, v) ∉ rest := fun h => lt_irrefl i (hfirst _ h)
      simp only [List.mem_cons, Prod.mk.injEq, true_and, hnot, or_false, Memory.read, if_true]
      exact ⟨fun h => ⟨h.symm, h ▸ hx⟩, fun h => h.1.symm⟩
    · simpa [Memory.read, hik, Ne.symm hik] using
        ih ⟨hrest, fun d hd => hcells d (List.mem_cons_of_mem _ hd)⟩

/-- Settles O12: two canonical memories that read alike list the same cells (`Memory.mem_iff_read`),
and a rising list is determined by its members. -/
theorem canonicalMemoriesReadingAlikeAreEqual :
    Obligations.CanonicalMemoriesReadingAlikeAreEqual := by
  intro m m' hm hm' hread
  refine List.Pairwise.eq_of_mem_iff (r := Prod.fst ⁻¹'o (· < ·)) hm.1 hm'.1 ?_
  rintro ⟨k, v⟩
  rw [Memory.mem_iff_read hm, Memory.mem_iff_read hm', hread]

/-! ### What a program can see (R45) -/

namespace SameProgramView

variable {s t : State} (h : SameProgramView s t)
include h

theorem setPc (p : Word) : SameProgramView (s.setPc p) (t.setPc p) :=
  ⟨h.regs, rfl, h.halted, h.mem, h.strict⟩

theorem advance : SameProgramView s.advance t.advance := by
  simpa [State.advance, h.pc] using h.setPc (s.pc + 1#16)

theorem setHalted (b : Bool) : SameProgramView (s.setHalted b) (t.setHalted b) :=
  ⟨h.regs, h.pc, rfl, h.mem, h.strict⟩

theorem haltIfSelf (p : Word) : SameProgramView (s.haltIfSelf p) (t.haltIfSelf p) := by
  simpa [haltIfSelf_eq, h.pc, h.halted] using h.setHalted (s.halted || decide (p = s.pc))

theorem writeReg (d : RegIdx) (v : Word) :
    SameProgramView (s.writeReg d v) (t.writeReg d v) where
  regs r := by rw [reg_writeReg, reg_writeReg, h.regs]
  pc := by simpa using h.pc
  halted := by simpa using h.halted
  mem a := by simpa [State.memRead] using h.mem a
  strict := by simpa using h.strict

theorem memWrite (a : MemIndex) (v : Word) : SameProgramView (s.memWrite a v) (t.memWrite a v) :=
  ⟨h.regs, h.pc, h.halted, fun b => by rw [memRead_memWrite, memRead_memWrite, h.mem], h.strict⟩

/-- Rows and events are nothing a program can see (R120). -/
theorem withTrace (r1 r2 r1' r2' : Rows) (es es' : List Event) :
    SameProgramView (s.withTrace r1 r2 es) (t.withTrace r1' r2' es') :=
  ⟨h.regs, h.pc, h.halted, h.mem, h.strict⟩

theorem cacheRead (a : MemIndex) (p : Word) :
    SameProgramView (s.cacheRead a p) (t.cacheRead a p) := by
  obtain ⟨_, _, _, hs⟩ := cacheRead_eq s a p
  obtain ⟨_, _, _, ht⟩ := cacheRead_eq t a p
  rw [hs, ht]
  exact h.withTrace ..

theorem cacheWrite (a : MemIndex) (p : Word) :
    SameProgramView (s.cacheWrite a p) (t.cacheWrite a p) := by
  obtain ⟨_, _, _, hs⟩ := cacheWrite_eq s a p
  obtain ⟨_, _, _, ht⟩ := cacheWrite_eq t a p
  rw [hs, ht]
  exact h.withTrace ..

theorem fetch : t.fetch = s.fetch := by rw [State.fetch, State.fetch, h.pc, h.mem]

theorem effectiveAddress (src : RegIdx) (imm7 : Imm7) :
    effectiveAddress t src imm7 = effectiveAddress s src imm7 :=
  effectiveAddress_congr (h.regs src) imm7

/-- An instruction that answers a next state answers one from every state that agrees, and the two
agree again. -/
theorem exec_next {i : Instr} {u : State} (hu : exec i s = .next u) :
    ∃ u', exec i t = .next u' ∧ SameProgramView u u' := by
  cases exec_eq_next_iff.1 hu with
  | @alu _ d v ha =>
    have ha' : aluWrite i t = some (d, v) := (aluWrite_congr fun r _ => h.regs r).trans ha
    exact ⟨_, exec_of_aluWrite ha', (h.writeReg d v).advance⟩
  | jr srcA => exact ⟨_, rfl, by simpa only [h.regs] using h.setPc _⟩
  | j imm13 => exact ⟨_, rfl, (h.haltIfSelf _).setPc _⟩
  | jal imm13 =>
    have hlink : linkValue t = linkValue s := congrArg (· + 1#16) h.pc
    refine ⟨_, rfl, ?_⟩
    rw [hlink]
    exact (h.writeReg _ _).setPc _
  | lw src dst imm7 =>
    refine ⟨_, rfl, ?_⟩
    rw [h.effectiveAddress, h.pc, h.mem]
    exact ((h.writeReg _ _).cacheRead _ _).advance
  | sw src dst imm7 =>
    refine ⟨_, rfl, ?_⟩
    rw [h.effectiveAddress, h.pc, h.regs]
    exact ((h.memWrite _ _).cacheWrite _ _).advance
  | jeq src dst imm7 =>
    have htarget : branchTarget t imm7 = branchTarget s imm7 :=
      congrArg (· + 1#16 + sext16 imm7) h.pc
    refine ⟨_, exec_jeq _ _ _ _, ?_⟩
    rw [h.regs, h.regs, htarget, h.pc]
    exact h.setPc _
  | reserved hi lenient =>
    exact ⟨_, exec_eq_next_iff.2 (.reserved hi (h.strict.trans lenient)), h.advance⟩

end SameProgramView

/-- An instruction faults only when it is reserved and the mode strict (R158). -/
theorem exec_eq_fault_iff {i : Instr} {s : State} {f : Fault} :
    exec i s = .fault f ↔
      isReserved i = true ∧ s.strictDecode = true ∧ f = .illegalInstruction := by
  constructor
  · intro h
    have hi : isReserved i = true := by
      cases i with
      | rsvdF5 | rsvdF6_7 | rsvdF9 | rsvdF10_11 | rsvdF12_15 => rfl
      | _ => cases h
    rw [exec_of_isReserved hi, unknownOpcode] at h
    split at h
    · next hs => cases h; exact ⟨hi, hs, rfl⟩
    · cases h
  · rintro ⟨hi, hs, rfl⟩
    rw [exec_of_isReserved hi, unknownOpcode, if_pos hs]

/-- A halted machine keeps its state on a step request (R79). -/
theorem step_of_halted {s : State} (hl : legalConfig s.config = true) (hh : s.halted = true) :
    step s = .next s := by
  rw [step, if_pos hl, if_pos hh]

/-- A machine ready to step carries out the fetched instruction (R70 to R75). -/
theorem step_of_ready {s : State} (hl : legalConfig s.config = true) (hh : s.halted = false) :
    step s = exec (decode s.fetch) s := by
  rw [step, if_pos hl, hh]
  rfl

/-- A step that faults carried out the fetched instruction, and that faulted. -/
theorem step_fault {s : State} {f : Fault} (h : step s = .fault f) :
    legalConfig s.config = true ∧ s.halted = false ∧ exec (decode s.fetch) s = .fault f := by
  unfold step at h
  split at h
  · next hl =>
    split at h
    · cases h
    · next hh => exact ⟨hl, by simpa using hh, h⟩
  · cases h

/-- A step keeps two states, each under a legal configuration, in agreement. -/
theorem SameProgramView.step_next {s s' t : State} (h : SameProgramView s s')
    (hl' : legalConfig s'.config = true) (ht : step s = .next t) :
    ∃ t', step s' = .next t' ∧ SameProgramView t t' := by
  obtain ⟨-, ⟨hh, rfl⟩ | ⟨hh, hexec⟩⟩ := Machine.step_next ht
  · exact ⟨s', step_of_halted hl' (h.halted.trans hh), h⟩
  · rw [step_of_ready hl' (h.halted.trans hh), h.fetch]
    exact h.exec_next hexec

/-- A step that faults faults alike from every state that agrees. -/
theorem SameProgramView.step_fault {s s' : State} {f : Fault} (h : SameProgramView s s')
    (hl' : legalConfig s'.config = true) (hf : step s = .fault f) : step s' = .fault f := by
  obtain ⟨-, hh, hexec⟩ := Machine.step_fault hf
  obtain ⟨hi, hs, rfl⟩ := exec_eq_fault_iff.1 hexec
  rw [step_of_ready hl' (h.halted.trans hh), h.fetch]
  exact exec_eq_fault_iff.2 ⟨hi, h.strict.trans hs, rfl⟩

/-- A step keeps the configuration legal, since it keeps the configuration (R19). -/
theorem step_legalConfig {s t : State} (hl : legalConfig s.config = true)
    (h : step s = .next t) : legalConfig t.config = true := by
  rwa [(step_sameParams h).1]

/-- Settles O53, by induction on the number of steps: agreement is kept by each step, and a fault is
the same fault. -/
theorem cachesNeverChangeAProgram : Obligations.CachesNeverChangeAProgram := by
  intro k
  induction k with
  | zero =>
    intro s s' _ _ h
    exact ⟨fun t ht => by cases ht; exact ⟨s', rfl, h⟩, nofun⟩
  | succ k ih =>
    intro s s' hl hl' h
    cases hu : step s with
    | next u =>
      obtain ⟨u', hu', hsame⟩ := h.step_next hl' hu
      rw [run_succ_of_next hu, run_succ_of_next hu']
      exact ih u u' (step_legalConfig hl hu) (step_legalConfig hl' hu') hsame
    | fault f =>
      rw [run_succ_of_fault hu, run_succ_of_fault (h.step_fault hl' hu)]
      exact ⟨nofun, fun _ hf => hf⟩
    | refused r =>
      rw [run_succ_of_refused hu]
      exact ⟨nofun, nofun⟩

end Sys2Proof.Machine

/-! PROOFS. The rules of 30_encoding.md: the decoder and the encoder undo each other (R51 to R53), the
row of a word (R56, R57), and the signed and the unsigned use of the immediates (R54, R55). -/

namespace Sys2Proof

/-! ### The decoder and the encoder -/

/-- Settles O14: the fields of a packed word (Laws/Decode.lean) are the operands, and the opcode
class and the function code select the constructor (`BitVec.toFin_ofNat` would hide their literals
from the matches). -/
theorem decodeOfEncode : Obligations.DecodeOfEncode := by
  intro i h
  cases i with
  | add | sub | or | and | slt | jr | rsvdF5 | rsvdF9 =>
    simp [encode, decode, decodeClassR, -BitVec.toFin_ofNat]
  | addi | j | jal | lw | sw | jeq | slti => simp [encode, decode, -BitVec.toFin_ofNat]
  | rsvdF6_7 a b d f =>
    obtain rfl | rfl : f = 6#4 ∨ f = 7#4 := by simpa [Instr.wf] using h
    all_goals simp [encode, decode, decodeClassR, -BitVec.toFin_ofNat]
  | rsvdF10_11 a b d f =>
    obtain rfl | rfl : f = 10#4 ∨ f = 11#4 := by simpa [Instr.wf] using h
    all_goals simp [encode, decode, decodeClassR, -BitVec.toFin_ofNat]
  | rsvdF12_15 a b d f =>
    obtain rfl | rfl | rfl | rfl : f = 12#4 ∨ f = 13#4 ∨ f = 14#4 ∨ f = 15#4 := by
      simpa [Instr.wf, or_assoc] using h
    all_goals simp [encode, decode, decodeClassR, -BitVec.toFin_ofNat]

/-- The eight opcode classes (R56). -/
theorem opClass_cases : ∀ o : OpClass, o = 0#3 ∨ o = 1#3 ∨ o = 2#3 ∨ o = 3#3 ∨ o = 4#3 ∨
    o = 5#3 ∨ o = 6#3 ∨ o = 7#3 := by decide

/-- The function codes of class R, the codes of one reserved row together (R56, R57). -/
theorem func_cases : ∀ f : Func, f = 0#4 ∨ f = 1#4 ∨ f = 2#4 ∨ f = 3#4 ∨ f = 4#4 ∨ f = 5#4 ∨
    (f == 6#4 || f == 7#4) = true ∨ f = 8#4 ∨ f = 9#4 ∨ (f == 10#4 || f == 11#4) = true ∨
    (f == 12#4 || f == 13#4 || f == 14#4 || f == 15#4) = true := by decide

/-- Every class-R word encodes a well-formed instruction (R57, R59). -/
theorem exists_encode_eq_packR (a b d : RegIdx) (f : Func) :
    ∃ i : Instr, i.wf = true ∧ encode i = packR a b d f := by
  obtain rfl | rfl | rfl | rfl | rfl | rfl | hf | rfl | rfl | hf | hf := func_cases f
  · exact ⟨.add a b d, rfl, rfl⟩
  · exact ⟨.sub a b d, rfl, rfl⟩
  · exact ⟨.or a b d, rfl, rfl⟩
  · exact ⟨.and a b d, rfl, rfl⟩
  · exact ⟨.slt a b d, rfl, rfl⟩
  · exact ⟨.rsvdF5 a b d, rfl, rfl⟩
  · exact ⟨.rsvdF6_7 a b d f, hf, rfl⟩
  · exact ⟨.jr a b d, rfl, rfl⟩
  · exact ⟨.rsvdF9 a b d, rfl, rfl⟩
  · exact ⟨.rsvdF10_11 a b d f, hf, rfl⟩
  · exact ⟨.rsvdF12_15 a b d f, hf, rfl⟩

/-- Every word encodes a well-formed instruction: a word is packed from its fields, and every
class has an instruction for them (R59). -/
theorem exists_encode_eq (w : Word) : ∃ i : Instr, i.wf = true ∧ encode i = w := by
  have hI := packI_fields w
  have hJ := packJ_fields w
  obtain h | h | h | h | h | h | h | h := opClass_cases (fieldOp w)
  case inl => exact packR_fields h ▸ exists_encode_eq_packR _ _ _ _
  all_goals rw [h] at hI hJ
  · exact ⟨.addi _ _ _, rfl, hI⟩
  · exact ⟨.j _, rfl, hJ⟩
  · exact ⟨.jal _, rfl, hJ⟩
  · exact ⟨.lw _ _ _, rfl, hI⟩
  · exact ⟨.sw _ _ _, rfl, hI⟩
  · exact ⟨.jeq _ _ _, rfl, hI⟩
  · exact ⟨.slti _ _ _, rfl, hI⟩

/-- Settles O15: a word is the encoding of a well-formed instruction (`exists_encode_eq`), which
decoding gives back. -/
theorem encodeOfDecode : Obligations.EncodeOfDecode := by
  intro w
  obtain ⟨i, hwf, rfl⟩ := exists_encode_eq w
  rw [decodeOfEncode i hwf]
  exact ⟨hwf, rfl⟩

/-! ### The opcode table -/

/-- Every instruction's row stands in the table (R56, R57). -/
theorem row_mem_opcodeTable (i : Instr) : i.row ∈ opcodeTable := by
  cases i <;> simp [Instr.row, opcodeTable]

/-- The encoding of a well-formed instruction matches the instruction's row: the laws of
Laws/PerInstr.lean, one for each constructor. -/
theorem rowMatches_encode : ∀ i : Instr, Laws.OpcodeRow.Statement i
  | .add a b d => Laws.OpcodeRow.add a b d
  | .sub a b d => Laws.OpcodeRow.sub a b d
  | .or a b d => Laws.OpcodeRow.or a b d
  | .and a b d => Laws.OpcodeRow.and a b d
  | .slt a b d => Laws.OpcodeRow.slt a b d
  | .jr a b d => Laws.OpcodeRow.jr a b d
  | .addi s d f => Laws.OpcodeRow.addi s d f
  | .j f => Laws.OpcodeRow.j f
  | .jal f => Laws.OpcodeRow.jal f
  | .lw s d f => Laws.OpcodeRow.lw s d f
  | .sw s d f => Laws.OpcodeRow.sw s d f
  | .jeq s d f => Laws.OpcodeRow.jeq s d f
  | .slti s d f => Laws.OpcodeRow.slti s d f
  | .rsvdF5 a b d => Laws.OpcodeRow.rsvdF5 a b d
  | .rsvdF6_7 a b d f => Laws.OpcodeRow.rsvdF6_7 a b d f
  | .rsvdF9 a b d => Laws.OpcodeRow.rsvdF9 a b d
  | .rsvdF10_11 a b d f => Laws.OpcodeRow.rsvdF10_11 a b d f
  | .rsvdF12_15 a b d f => Laws.OpcodeRow.rsvdF12_15 a b d f

/-- Every word matches the row of the instruction it decodes to (R56, R57). -/
theorem rowMatches_decode (w : Word) : rowMatches w (decode w).row = true := by
  obtain ⟨hwf, hw⟩ := encodeOfDecode w
  simpa only [hw] using rowMatches_encode (decode w) hwf

/-- Two rows ask for different bits somewhere under both their masks. -/
def Conflict (r r' : OpcodeRow) : Prop := r.bits &&& r'.mask ≠ r'.bits &&& r.mask

/-- Conflict goes both ways. -/
theorem conflict_symm : Std.Symm Conflict := ⟨fun _ _ => Ne.symm⟩

/-- Conflicting rows have no word in common. -/
theorem Conflict.not_both {r r' : OpcodeRow} (hc : Conflict r r') {w : Word}
    (h : rowMatches w r = true) : ¬ rowMatches w r' = true := by
  intro h'
  have hbits : w &&& r.mask = r.bits := beq_iff_eq.1 h
  have hbits' : w &&& r'.mask = r'.bits := beq_iff_eq.1 h'
  apply hc
  calc r.bits &&& r'.mask = w &&& r.mask &&& r'.mask := by rw [hbits]
    _ = w &&& r'.mask &&& r.mask := by
      rw [BitVec.and_assoc, BitVec.and_comm r.mask, BitVec.and_assoc]
    _ = r'.bits &&& r.mask := by rw [hbits']

/-- The rows of the table are pairwise in conflict (R56, R57). -/
theorem opcodeTable_pairwise_conflict : opcodeTable.Pairwise Conflict := by
  unfold Conflict
  decide

/-- No row stands twice in the table, since a row is not in conflict with itself. -/
theorem opcodeTable_nodup : opcodeTable.Nodup :=
  opcodeTable_pairwise_conflict.imp fun hc h => hc (by rw [h])

/-- A word matches at most one row of the table (R56, R57). -/
theorem eq_of_rowMatches {w : Word} {r r' : OpcodeRow} (hr : r ∈ opcodeTable)
    (hr' : r' ∈ opcodeTable) (h : rowMatches w r = true) (h' : rowMatches w r' = true) :
    r = r' := by
  by_contra hne
  have := conflict_symm
  have hc : Conflict r r' := opcodeTable_pairwise_conflict.forall hr hr' hne
  exact hc.not_both h h'

/-- Settles O16: the row of the decoded instruction matches (`rowMatches_decode`), no other one
does (`eq_of_rowMatches`), and it stands once in the table. -/
theorem everyWordMatchesExactlyItsRow : Obligations.EveryWordMatchesExactlyItsRow := by
  intro w
  have hmem := row_mem_opcodeTable (decode w)
  have hiff : ∀ r ∈ opcodeTable, rowMatches w r = (r == (decode w).row) := by
    intro r hr
    rw [Bool.eq_iff_iff, beq_iff_eq]
    exact ⟨fun h => eq_of_rowMatches hr hmem h (rowMatches_decode w),
      fun h => h ▸ rowMatches_decode w⟩
  rw [List.filter_congr hiff, List.filter_beq, List.count_eq_one_of_mem opcodeTable_nodup hmem]
  rfl

end Sys2Proof

namespace Sys2Proof.Machine

open Sys2Proof

/-! ### The immediates -/

/-- The signed extension keeps the signed value (R54). -/
@[simp] theorem sext16_toInt (f : Imm7) : (sext16 f).toInt = f.toInt := by
  rw [sext16_eq_signExtend, BitVec.toInt_signExtend_of_le (by decide)]

/-- Adding the signed extension modulo 65536 adds the signed number (R54). -/
theorem add_sext16_toNat (x : Word) (f : Imm7) :
    ((x + sext16 f).toNat : Int) = ((x.toNat : Int) + f.toInt) % 65536 := by
  rw [← sext16_toInt, BitVec.toInt_eq_toNat_cond, BitVec.toNat_add]
  split <;> omega

/-- The effective address is the base plus the signed number, modulo 8192 (R54, R100). -/
theorem effectiveAddress_toNat (s : State) (src : RegIdx) (f : Imm7) :
    ((effectiveAddress s src f).toNat : Int) =
      (((s.reg src).toNat : Int) + f.toInt) % 8192 := by
  have h := add_sext16_toNat (s.reg src) f
  rw [effectiveAddress, maskAddr_toNat]
  omega

/-- The target of a taken `jeq` is the next program counter plus the signed number, modulo 65536
(R54, R113). -/
theorem branchTarget_toNat (s : State) (f : Imm7) :
    ((branchTarget s f).toNat : Int) = ((s.pc.toNat : Int) + 1 + f.toInt) % 65536 := by
  rw [branchTarget, add_sext16_toNat, BitVec.toNat_add, BitVec.toNat_ofNat]
  omega

/-- A computed register other than 0 holds the computed value (R84). -/
theorem writeAndAdvance_reg_self {d : RegIdx} (h : d ≠ 0#3) (s : State) (v : Word) :
    (s.writeAndAdvance d v).reg d = v :=
  reg_writeReg_self h s v

/-- Settles O18: `add_sext16_toNat` at what `addi` writes, at the effective address and at the
target of `jeq`. -/
theorem signedUseOfImm7 : Obligations.SignedUseOfImm7 := by
  refine ⟨fun f => ⟨rfl, sext16_toInt f, BitVec.le_toInt f, Int.le_of_lt_add_one BitVec.toInt_lt⟩,
    add_sext16_toNat, rfl, rfl, rfl, fun s src dst f hd => ⟨_, rfl, ?_⟩, effectiveAddress_toNat,
    fun s src dst f heq => ⟨_, exec_jeq src dst f s, ?_⟩⟩
  · rw [writeAndAdvance_reg_self hd, add_sext16_toNat]
  · rw [setPc_pc, if_pos heq, branchTarget_toNat]

/-- Settles O19: the same field 0x7F is the number 127 in `slti` and -1 in `addi`, and the target of
`j` and `jal` is the field's number (`jumpTarget_toNat`). -/
theorem unsignedUseOfImmediates : Obligations.UnsignedUseOfImmediates := by
  refine ⟨zext16_toNat, jumpTarget_toNat, fun s src dst hd => ⟨_, _, rfl, rfl, ?_, ?_⟩,
    fun s f => ⟨_, _, rfl, rfl, jumpTarget_toNat f, jumpTarget_toNat f⟩⟩
  · rw [writeAndAdvance_reg_self hd, ltBit_eq, zext16_toNat]
    rfl
  · rw [writeAndAdvance_reg_self hd, BitVec.sub_eq_add_neg]
    rfl

end Sys2Proof.Machine

/-! PROOFS. The rules of 40_execution_step.md: runs of a halted machine (R79), the reserved function
codes (R76), and what a step in the ready state carries out (R70 to R73). -/

namespace Sys2Proof.Machine

open Sys2Proof

/-! ### The halted machine -/

/-- A state that a step keeps is kept by every run. -/
theorem run_of_step_self {s : State} (h : step s = .next s) (k : Nat) :
    Host.Core.run core k s = .next s := by
  induction k with
  | zero => rfl
  | succ k ih => rw [run_succ_of_next h, ih]

/-- Settles O37: a step keeps a halted state (`step_of_halted`), so a run does. -/
theorem haltedMachineStaysAsItIs : Obligations.HaltedMachineStaysAsItIs :=
  fun k _ hl hh => run_of_step_self (step_of_halted hl hh) k

/-! ### The reserved function codes -/

/-- The reserved instructions are those whose word has opcode class 0 and one of the ten reserved
function codes (R57). -/
theorem isReserved_iff_fields_encode {i : Instr} (hwf : i.wf = true) :
    isReserved i = true ↔ fieldOp (encode i) = 0#3 ∧
      (fieldFunc (encode i)).toNat ∈ [5, 6, 7, 9, 10, 11, 12, 13, 14, 15] := by
  cases i with
  | addi | j | jal | lw | sw | jeq | slti => simp [isReserved, encode]
  | add | sub | or | and | slt | jr | rsvdF5 | rsvdF9 => simp [isReserved, encode]
  | rsvdF6_7 _ _ _ f | rsvdF10_11 _ _ _ f | rsvdF12_15 _ _ _ f =>
    simp only [Instr.wf] at hwf
    simp only [isReserved, encode, fieldOp_packR, fieldFunc_packR, true_and, true_iff]
    revert f
    decide

/-- A word decodes to a reserved instruction exactly when its own fields are reserved: the decoded
instruction is well-formed and the word is its encoding. -/
theorem isReserved_decode_iff (w : Word) :
    isReserved (decode w) = true ↔ fieldOp w = 0#3 ∧
      (fieldFunc w).toNat ∈ [5, 6, 7, 9, 10, 11, 12, 13, 14, 15] := by
  obtain ⟨hwf, hw⟩ := encodeOfDecode w
  simpa only [hw] using isReserved_iff_fields_encode hwf

/-- In the default mode a reserved instruction advances and does nothing else (R76). -/
theorem exec_of_isReserved_lenient {i : Instr} {s : State} (hi : isReserved i = true)
    (hs : s.strictDecode = false) : exec i s = .next s.advance :=
  exec_eq_next_iff.2 (.reserved hi hs)

/-- Settles O34: the fields of a reserved word (`isReserved_decode_iff`), its no-op in the default
mode (`exec_of_isReserved_lenient`) and its fault in strict mode (`exec_eq_fault_iff`). -/
theorem reservedWordsAreNoOps : Obligations.ReservedWordsAreNoOps := by
  refine ⟨isReserved_decode_iff, fun srcA srcB dst func s hs => ?_,
    fun i s hi hs => exec_eq_fault_iff.2 ⟨hi, hs, rfl⟩⟩
  have hnop {i : Instr} (hi : isReserved i = true) : exec i s = .next s.advance :=
    exec_of_isReserved_lenient hi hs
  exact ⟨s.advance, setPc_wentTo s _, hnop rfl, hnop rfl, hnop rfl, hnop rfl, hnop rfl⟩

/-! ### The ready machine -/

/-- Settles O35: the step is `step_of_ready`, and the word of a well-formed instruction decodes to
that instruction (`decodeOfEncode`). -/
theorem stepRunsTheDecodedInstruction : Obligations.StepRunsTheDecodedInstruction := by
  intro s hl hh
  have hstep : step s = exec (decode (s.memRead (maskAddr s.pc))) s := step_of_ready hl hh
  refine ⟨hstep, fun i hwf hword => ?_⟩
  rw [hstep, hword, decodeOfEncode i hwf]

end Sys2Proof.Machine

/-! PROOFS. The rules of 41_alu_register.md: the word of each register-register instruction (R56)
and the register it computes (R84 to R89). -/

namespace Sys2Proof

/-- A word that encodes a well-formed instruction decodes to it. -/
theorem decode_eq_of_encode_eq {i : Instr} {w : Word} (hwf : i.wf = true) (h : encode i = w) :
    decode w = i := by
  rw [← h, decodeOfEncode i hwf]

/-- A word of opcode class 0 is packed from its three register fields and its function code
(R51). -/
theorem packR_of_func {w : Word} {f : Func} (hop : w.extractLsb' 13 3 = 0#3)
    (hf : w.extractLsb' 0 4 = f) :
    packR (w.extractLsb' 10 3) (w.extractLsb' 7 3) (w.extractLsb' 4 3) f = w := by
  subst hf
  exact packR_fields hop

end Sys2Proof

namespace Sys2Proof.Machine

open Sys2Proof

/-- An instruction that only computes a register completes from every state and leaves all but that
register and the program counter (R84). -/
theorem exec_wroteReg_of_aluWrite {i : Instr} {s : State} {d : RegIdx} {v : Word}
    (h : aluWrite i s = some (d, v)) : ∃ t, exec i s = .next t ∧ WroteReg s t d v :=
  ⟨_, exec_of_aluWrite h, writeAndAdvance_wroteReg s d v⟩

/-- Settles O20: the word is `add`'s encoding of its fields (`packR_of_func`), and `add` computes
the sum and nothing else (`exec_wroteReg_of_aluWrite`). -/
theorem addWritesTheSum : Obligations.AddWritesTheSum :=
  ⟨fun _ hop hf => decode_eq_of_encode_eq rfl (packR_of_func hop hf),
    fun _ _ _ _ => exec_wroteReg_of_aluWrite rfl⟩

/-- Settles O21: as `addWritesTheSum`, with function code 1 and srcA minus srcB. -/
theorem subWritesTheDifference : Obligations.SubWritesTheDifference :=
  ⟨fun _ hop hf => decode_eq_of_encode_eq rfl (packR_of_func hop hf),
    fun _ _ _ _ => exec_wroteReg_of_aluWrite rfl⟩

/-- Settles O22: as `addWritesTheSum`, with function code 2 and the bitwise inclusive or. -/
theorem orWritesTheDisjunction : Obligations.OrWritesTheDisjunction :=
  ⟨fun _ hop hf => decode_eq_of_encode_eq rfl (packR_of_func hop hf),
    fun _ _ _ _ => exec_wroteReg_of_aluWrite rfl⟩

/-- Settles O23: as `addWritesTheSum`, with function code 3 and the bitwise and. -/
theorem andWritesTheConjunction : Obligations.AndWritesTheConjunction :=
  ⟨fun _ hop hf => decode_eq_of_encode_eq rfl (packR_of_func hop hf),
    fun _ _ _ _ => exec_wroteReg_of_aluWrite rfl⟩

/-- Settles O24: as `addWritesTheSum`, with function code 4 and the comparison bit, which compares
the unsigned numbers (`ltBit_eq`). -/
theorem sltWritesTheUnsignedComparison : Obligations.SltWritesTheUnsignedComparison := by
  refine ⟨fun _ hop hf => decode_eq_of_encode_eq rfl (packR_of_func hop hf),
    fun srcA srcB dst s => ?_⟩
  rw [← ltBit_eq]
  exact exec_wroteReg_of_aluWrite rfl

end Sys2Proof.Machine

/-! PROOFS. The rules of 42_alu_immediate.md: the word of `addi` and of `slti` (R52, R56) and the
register each computes from its extended immediate (R95, R96). -/

namespace Sys2Proof

/-- A word is packed as class I from its opcode class, its two register fields and its imm7
(R52). -/
theorem packI_of_op {w : Word} {o : OpClass} (hop : w.extractLsb' 13 3 = o) :
    packI o (w.extractLsb' 10 3) (w.extractLsb' 7 3) (w.extractLsb' 0 7) = w := by
  subst hop
  exact packI_fields w

end Sys2Proof

namespace Sys2Proof.Machine

open Sys2Proof

/-- Settles O25: the word is `addi`'s encoding of its fields (`packI_of_op`), and the immediate it
adds is the two's complement extension (`sext16_eq_signExtend`). -/
theorem addiWritesTheSum : Obligations.AddiWritesTheSum := by
  refine ⟨fun _ hop => decode_eq_of_encode_eq rfl (packI_of_op hop), fun src dst imm7 s => ?_⟩
  rw [← sext16_eq_signExtend]
  exact exec_wroteReg_of_aluWrite rfl

/-- Settles O26: the word is `slti`'s encoding of its fields (`packI_of_op`), and the comparison
bit compares the register with the field's number (`ltBit_eq`, `zext16_toNat`). -/
theorem sltiWritesTheUnsignedComparison : Obligations.SltiWritesTheUnsignedComparison := by
  refine ⟨fun _ hop => decode_eq_of_encode_eq rfl (packI_of_op hop), fun src dst imm7 s => ?_⟩
  rw [← zext16_toNat, ← ltBit_eq]
  exact exec_wroteReg_of_aluWrite rfl

end Sys2Proof.Machine

/-! PROOFS. The rules of 43_load_store.md: the one addressing mode and its unmodified base (R100), the
word `lw` loads (R101) and the word `sw` stores (R102), each with its cache access and the events of
that access. -/

namespace Sys2Proof.Machine

open Sys2Proof

/-! ### The events of a cache access (R136, R137) -/

@[simp] theorem commitL1_events (s : State) (r : AccessResult) (a : MemIndex) (p : Word) :
    (s.commitL1 r a p).events = s.events ++ [⟨.l1, r.kind, p, a, r.row⟩] := rfl
@[simp] theorem commitL2_events (s : State) (r : AccessResult) (a : MemIndex) (p : Word) :
    (s.commitL2 r a p).events = s.events ++ [⟨.l2, r.kind, p, a, r.row⟩] := rfl

/-- The event of a load's access to the cache of the given name. -/
def readEvent (n : CacheName) (g : Geometry) (rows : Rows) (a : MemIndex) (p : Word) : Event :=
  ⟨n, (readAccess g rows a).kind, p, a, rowOf g a⟩

/-- The events of a load's cache access, the one of L2 on an L1 miss only (R136). -/
def loadEvents (s : State) (a : MemIndex) (p : Word) : List Event :=
  match s.config with
  | .none => []
  | .one g1 => [readEvent .l1 g1 s.rows1 a p]
  | .two g1 g2 =>
    if (readAccess g1 s.rows1 a).kind = .miss then
      [readEvent .l1 g1 s.rows1 a p, readEvent .l2 g2 s.rows2 a p]
    else [readEvent .l1 g1 s.rows1 a p]

/-- The events of a store's cache access, one for each configured cache (R137). -/
def storeEvents : CacheConfig → MemIndex → Word → List Event
  | .none, _, _ => []
  | .one g1, a, p => [⟨.l1, .sw, p, a, rowOf g1 a⟩]
  | .two g1 g2, a, p => [⟨.l1, .sw, p, a, rowOf g1 a⟩, ⟨.l2, .sw, p, a, rowOf g2 a⟩]

theorem cacheRead_events (s : State) (a : MemIndex) (p : Word) :
    (s.cacheRead a p).events = s.events ++ loadEvents s a p := by
  unfold State.cacheRead loadEvents
  cases s.config with
  | none => simp
  | one g1 => simp [readEvent]
  | two g1 g2 =>
    by_cases hmiss : (readAccess g1 s.rows1 a).kind = .miss
    · simp [readEvent, hmiss]
    · simp [readEvent, hmiss]

theorem cacheWrite_events (s : State) (a : MemIndex) (p : Word) :
    (s.cacheWrite a p).events = s.events ++ storeEvents s.config a p := by
  unfold State.cacheWrite
  cases s.config with
  | none => simp [storeEvents]
  | one g1 => simp [storeEvents]
  | two g1 g2 => simp [storeEvents]

/-- Every event of a load's cache access carries the access's pc and address (R138). -/
theorem pc_address_of_mem_loadEvents {s : State} {a : MemIndex} {p : Word} {e : Event}
    (h : e ∈ loadEvents s a p) : e.pc = p ∧ e.address = a := by
  have hmem : ∃ n g rows, e = readEvent n g rows a p := by
    unfold loadEvents at h
    split at h
    · cases h
    · exact ⟨_, _, _, List.mem_singleton.1 h⟩
    · split at h
      · obtain h | h := List.mem_pair.1 h
        · exact ⟨_, _, _, h⟩
        · exact ⟨_, _, _, h⟩
      · exact ⟨_, _, _, List.mem_singleton.1 h⟩
  obtain ⟨n, g, rows, rfl⟩ := hmem
  exact ⟨rfl, rfl⟩

/-- Every event of a store's cache access is of kind SW and carries the access's pc and address
(R137, R138). -/
theorem kind_pc_address_of_mem_storeEvents {c : CacheConfig} {a : MemIndex} {p : Word} {e : Event}
    (h : e ∈ storeEvents c a p) : e.kind = .sw ∧ e.pc = p ∧ e.address = a := by
  cases c with
  | none => cases h
  | one g1 =>
    obtain rfl := List.mem_singleton.1 h
    exact ⟨rfl, rfl, rfl⟩
  | two g1 g2 =>
    obtain rfl | rfl := List.mem_pair.1 h
    · exact ⟨rfl, rfl, rfl⟩
    · exact ⟨rfl, rfl, rfl⟩

/-- A store emits one event per configured cache (R140). -/
theorem storeEvents_length (c : CacheConfig) (a : MemIndex) (p : Word) :
    (storeEvents c a p).length = storeEventCount c := by
  cases c <;> rfl

/-- Without a cache a load's access does nothing (R136). -/
theorem cacheRead_of_no_cache {s : State} (h : s.config = .none) (a : MemIndex) (p : Word) :
    s.cacheRead a p = s := by
  simp [State.cacheRead, h]

/-- Without a cache a store's access does nothing (R137). -/
theorem cacheWrite_of_no_cache {s : State} (h : s.config = .none) (a : MemIndex) (p : Word) :
    s.cacheWrite a p = s := by
  simp [State.cacheWrite, h]

/-! ### The rows and events after `lw` and `sw` -/

section

variable {s t : State} {src dst : RegIdx} {imm7 : Imm7}

/-- The rows and events after a `lw` are those of its cache access alone: the register it writes
has no part in them (R101). -/
theorem exec_lw_trace (h : exec (.lw src dst imm7) s = .next t) :
    SameTrace (s.cacheRead (effectiveAddress s src imm7) s.pc) t := by
  cases h
  exact cacheRead_trace (writeReg_config s _ _) (by simp [SameTrace]) _ _

/-- The rows and events after a `sw` are those of its cache access alone: the word it stores has no
part in them (R102). -/
theorem exec_sw_trace (h : exec (.sw src dst imm7) s = .next t) :
    SameTrace (s.cacheWrite (effectiveAddress s src imm7) s.pc) t := by
  cases h
  exact cacheWrite_trace (s := s) (t := s.memWrite _ _) rfl ⟨rfl, rfl, rfl⟩ _ _

theorem exec_lw_events (h : exec (.lw src dst imm7) s = .next t) :
    t.events = s.events ++ loadEvents s (effectiveAddress s src imm7) s.pc := by
  obtain ⟨-, -, hevents⟩ := exec_lw_trace h
  rw [hevents, cacheRead_events]

theorem exec_sw_events (h : exec (.sw src dst imm7) s = .next t) :
    t.events = s.events ++ storeEvents s.config (effectiveAddress s src imm7) s.pc := by
  obtain ⟨-, -, hevents⟩ := exec_sw_trace h
  rw [hevents, cacheWrite_events]

/-- What the destination of a `lw` reads: the word at the effective address, and 0 for register 0
(R12, R101). -/
theorem exec_lw_reg_dst (h : exec (.lw src dst imm7) s = .next t) :
    t.reg dst = if dst = 0#3 then 0#16 else s.memRead (effectiveAddress s src imm7) := by
  split
  · next h0 => rw [h0, reg_zero]
  · next h0 => exact exec_lw_reg h0 h

/-- A `lw` advances the program counter and keeps the halted flag (R101). -/
theorem exec_lw_pc_halted (h : exec (.lw src dst imm7) s = .next t) :
    t.pc = s.pc + 1#16 ∧ t.halted = s.halted := by
  cases h
  simp

/-- A `sw` advances the program counter and keeps the halted flag (R102). -/
theorem exec_sw_pc_halted (h : exec (.sw src dst imm7) s = .next t) :
    t.pc = s.pc + 1#16 ∧ t.halted = s.halted := by
  cases h
  simp [State.memWrite]

end

/-! ### The obligations -/

/-- Settles O27: the mask keeps the low 13 bits (`maskAddr_toNat_eq_and`), the number is
`effectiveAddress_toNat`, the base is no destination (`exec_reg_of_ne_dest`), and a new event is one
of `loadEvents` or `storeEvents`. -/
theorem effectiveAddressRule : Obligations.EffectiveAddressRule := by
  refine ⟨fun s src imm7 => ⟨?_, effectiveAddress_toNat s src imm7⟩,
    fun s t src dst imm7 h => ⟨exec_reg_of_ne_dest h nofun, fun e he => ?_⟩,
    fun s t src dst imm7 h => ⟨fun hne => exec_reg_of_ne_dest h ?_, fun e he => ?_⟩⟩
  · rw [← sext16_eq_signExtend, ← memIndex_eq_iff, BitVec.toNat_setWidth, ← maskAddr_toNat_eq_and]
    exact (Nat.mod_eq_of_lt (memIndex_lt _)).symm
  · rw [exec_sw_events h, List.mem_append] at he
    exact he.imp_right fun hnew => (kind_pc_address_of_mem_storeEvents hnew).2.2
  · exact fun hdst => hne (Option.some.inj hdst).symm
  · rw [exec_lw_events h, List.mem_append] at he
    exact he.imp_right fun hnew => (pc_address_of_mem_loadEvents hnew).2

/-- Settles O28: the word is `lw`'s encoding of its fields (`packI_of_op`), the register is
`exec_lw_reg_dst` and the rows and events are `exec_lw_trace`. -/
theorem lwLoadsTheWord : Obligations.LwLoadsTheWord := by
  refine ⟨fun _ hop => decode_eq_of_encode_eq rfl (packI_of_op hop), fun src dst imm7 s => ?_⟩
  obtain ⟨t, h⟩ : ∃ t, exec (.lw src dst imm7) s = .next t := ⟨_, rfl⟩
  obtain ⟨hpc, hhalted⟩ := exec_lw_pc_halted h
  have hmem : t.mem = s.mem := exec_mem_of_not_sw h nofun
  have htrace := exec_lw_trace h
  refine ⟨t, h, exec_lw_reg_dst h, fun r hr => exec_reg_of_ne_dest h ?_, hpc,
    memRead_congr hmem, hhalted, exec_sameParams h, htrace, fun hnone => ?_⟩
  · exact fun hdst => hr (Option.some.inj hdst).symm
  · rwa [cacheRead_of_no_cache hnone] at htrace

/-- Settles O29: the word is `sw`'s encoding of its fields (`packI_of_op`), memory is
`exec_sw_memRead`, the rows are `exec_sw_trace` and the events `exec_sw_events`. -/
theorem swStoresTheRegister : Obligations.SwStoresTheRegister := by
  refine ⟨fun _ hop => decode_eq_of_encode_eq rfl (packI_of_op hop), fun src dst imm7 s => ?_⟩
  obtain ⟨t, h⟩ : ∃ t, exec (.sw src dst imm7) s = .next t := ⟨_, rfl⟩
  obtain ⟨hpc, hhalted⟩ := exec_sw_pc_halted h
  have htrace := exec_sw_trace h
  refine ⟨t, h, ?_, fun a ha => ?_, fun r => exec_reg_of_ne_dest h nofun, hpc, hhalted,
    exec_sameParams h, htrace,
    ⟨_, exec_sw_events h, storeEvents_length _ _ _,
      fun e he => (kind_pc_address_of_mem_storeEvents he).1⟩, fun hnone => ?_⟩
  · rw [exec_sw_memRead h, if_pos rfl]
  · rw [exec_sw_memRead h, if_neg ha]
  · rwa [cacheWrite_of_no_cache hnone] at htrace

end Sys2Proof.Machine

/-! PROOFS. The rules of 44_control_transfer.md: the absolute jumps and the self-jump halt (R110,
R111), the register jump (R112), the branch (R113), and that only a self-jump `j` halts (R114). -/

namespace Sys2Proof

/-- A word is packed as class J from its opcode class and its imm13 (R53). -/
theorem packJ_of_op {w : Word} {o : OpClass} (hop : w.extractLsb' 13 3 = o) :
    packJ o (w.extractLsb' 0 13) = w := by
  subst hop
  exact packJ_fields w

end Sys2Proof

namespace Sys2Proof.Machine

open Sys2Proof

/-! ### The self-jump (R110) -/

/-- The target of a `j` is a word exactly when the field and the word are the same number: all 16
bits count (decision D7). -/
theorem jumpTarget_eq_iff (f : Imm13) (a : Word) : jumpTarget f = a ↔ f.toNat = a.toNat := by
  rw [← BitVec.toNat_inj, jumpTarget_toNat]

/-- The absolute target is its own masked address (R31, R55). -/
@[simp] theorem maskAddr_jumpTarget (f : Imm13) : maskAddr (jumpTarget f) = f := by
  rw [← memIndex_eq_iff, maskAddr_toNat, jumpTarget_toNat]
  exact Nat.mod_eq_of_lt (memIndex_lt f)

section

variable {imm13 : Imm13} {s : State}

/-- A `j` to its own program counter sets the halted flag and does nothing else. -/
theorem exec_j_of_eq_pc (h : jumpTarget imm13 = s.pc) :
    exec (.j imm13) s = .next (s.setHalted true) := by
  show execJ imm13 s = _
  rw [execJ, State.haltIfSelf, if_pos h, h]
  rfl

/-- A `j` to any other word sets the program counter and does nothing else. -/
theorem exec_j_of_ne_pc (h : jumpTarget imm13 ≠ s.pc) :
    exec (.j imm13) s = .next (s.setPc (jumpTarget imm13)) := by
  show execJ imm13 s = _
  rw [execJ, State.haltIfSelf, if_neg h]

end

/-- An instruction keeps the halted flag, but for a `j` to its own program counter, which sets it
(R114). -/
theorem exec_halted {i : Instr} {s t : State} (h : exec i s = .next t) :
    t.halted = s.halted ∨
      ∃ imm13, i = .j imm13 ∧ jumpTarget imm13 = s.pc ∧ t = s.setHalted true := by
  cases exec_eq_next_iff.1 h with
  | j imm13 =>
    by_cases hself : jumpTarget imm13 = s.pc
    · exact .inr ⟨imm13, rfl, hself, Host.Outcome.next.inj (h.symm.trans (exec_j_of_eq_pc hself))⟩
    · left
      rw [Host.Outcome.next.inj (h.symm.trans (exec_j_of_ne_pc hself)), setPc_halted]
  | @alu _ d v => exact .inl (writeAndAdvance_wroteReg s d v).halted
  | sw => exact .inl (exec_sw_pc_halted h).2
  | lw => exact .inl (exec_lw_pc_halted h).2
  | jal => exact .inl (by simp)
  | jr | jeq | reserved => exact .inl rfl

/-! ### The obligations -/

/-- Settles O38: a halted machine keeps its state (`step_next`), and an instruction that changes the
flag is a `j` to its own program counter, which leaves the rest (`exec_halted`). -/
theorem onlyASelfJumpHalts : Obligations.OnlyASelfJumpHalts := by
  intro s t hstep
  obtain ⟨-, ⟨hh, rfl⟩ | ⟨hh, hexec⟩⟩ := step_next hstep
  · exact ⟨id, fun hready => absurd hh (by simp [hready])⟩
  · refine ⟨fun hhalted => absurd hhalted (by simp [hh]), fun _ ht => ?_⟩
    obtain hkept | ⟨imm13, hj, hself, rfl⟩ := exec_halted hexec
    · exact absurd (hkept.trans hh) (by simp [ht])
    · exact ⟨imm13, hj, hself, rfl⟩

/-- Settles O39: the target is below 8192, so the first step is a `j` elsewhere; the target masks to
the same index, so the second step fetches the same word, now a `j` to its own program counter. -/
theorem selfJumpPastMemoryEndHaltsOneStepLater :
    Obligations.SelfJumpPastMemoryEndHaltsOneStepLater := by
  rintro s imm13 hl hh hj hpc hself
  have helsewhere : jumpTarget imm13 ≠ s.pc := by
    have hlt : imm13.toNat < 8192 := memIndex_lt imm13
    rw [Ne, jumpTarget_eq_iff]
    omega
  have hfetch : (s.setPc (jumpTarget imm13)).fetch = s.fetch := by
    show s.memRead (maskAddr (jumpTarget imm13)) = s.memRead (maskAddr s.pc)
    rw [maskAddr_jumpTarget, hself]
  have hfirst : step s = .next (s.setPc (jumpTarget imm13)) := by
    rw [step_of_ready hl hh, hj, exec_j_of_ne_pc helsewhere]
  have hsecond : step (s.setPc (jumpTarget imm13)) =
      .next ((s.setPc (jumpTarget imm13)).setHalted true) := by
    rw [step_of_ready (s := s.setPc (jumpTarget imm13)) hl hh, hfetch, hj, exec_j_of_eq_pc rfl]
  exact ⟨_, _, hfirst, hh, rfl, hsecond, rfl, rfl, fun _ => rfl, fun _ => rfl, ⟨rfl, rfl⟩,
    rfl, rfl, rfl⟩

/-- Settles O30: the word is `j`'s encoding of its field (`packJ_of_op`), and the flag follows the
two cases of a `j` (`exec_j_of_eq_pc`, `exec_j_of_ne_pc`). -/
theorem jJumpsAndHaltsOnItself : Obligations.JJumpsAndHaltsOnItself := by
  refine ⟨fun _ hop => decode_eq_of_encode_eq rfl (packJ_of_op hop), fun imm13 s => ?_⟩
  rw [← jumpTarget_eq_iff]
  by_cases hself : jumpTarget imm13 = s.pc
  · exact ⟨_, exec_j_of_eq_pc hself, hself.symm, by simp [hself], fun _ => rfl, fun _ => rfl,
      ⟨rfl, rfl⟩, rfl, rfl, rfl⟩
  · exact ⟨_, exec_j_of_ne_pc hself, rfl, by simp [hself], fun _ => rfl, fun _ => rfl,
      ⟨rfl, rfl⟩, rfl, rfl, rfl⟩

/-- Settles O31: the word is `jal`'s encoding of its field (`packJ_of_op`), the link is the one
register write (`reg_writeReg_self`, `reg_writeReg_of_ne`). -/
theorem jalLinksAndJumps : Obligations.JalLinksAndJumps := by
  refine ⟨fun _ hop => decode_eq_of_encode_eq rfl (packJ_of_op hop), fun imm13 s => ?_⟩
  obtain ⟨t, h⟩ : ∃ t, exec (.jal imm13) s = .next t := ⟨_, rfl⟩
  have hmem : t.mem = s.mem := exec_mem_of_not_sw h nofun
  have hparams := exec_sameParams h
  cases h
  exact ⟨_, rfl, reg_writeReg_self (by decide) s _, fun r hr => reg_writeReg_of_ne hr s _, rfl,
    by simp, memRead_congr hmem, hparams, by simp [SameTrace]⟩

/-- Settles O32: the word is `jr`'s encoding of its fields (`packR_of_func`), and `jr` sets the
program counter and nothing else (`setPc_wentTo`). -/
theorem jrJumpsToTheRegister : Obligations.JrJumpsToTheRegister :=
  ⟨fun _ hop hf => decode_eq_of_encode_eq rfl (packR_of_func hop hf),
    fun srcA _ _ s => ⟨_, rfl, setPc_wentTo s (s.reg srcA)⟩⟩

/-- Settles O33: the word is `jeq`'s encoding of its fields (`packI_of_op`), `jeq` sets the program
counter alone (`exec_jeq`), and its displacement is the two's complement extension
(`sext16_eq_signExtend`). -/
theorem jeqBranchesOnEquality : Obligations.JeqBranchesOnEquality := by
  refine ⟨fun _ hop => decode_eq_of_encode_eq rfl (packI_of_op hop), fun src dst imm7 s => ?_⟩
  rw [← sext16_eq_signExtend]
  exact ⟨_, exec_jeq src dst imm7 s, setPc_wentTo s _⟩

end Sys2Proof.Machine

/-! PROOFS. The rules of 45_cache_model.md: the legal configurations (R121 to R123), the row and
the tag of an address (R124, R125), touch (R128, R144), the accesses to one cache (R129, R130), the
chain of L1 and L2 (R136, R137), the events of an instruction (R138 to R140), what rows and events
depend on (R141) and the independence of the levels (R142). -/

namespace Sys2Proof.Machine

open Sys2Proof

/-! ### Geometry (R122 to R125) -/

/-- The conditions of R123, decision D18. -/
theorem legalGeometry_iff (g : Geometry) : legalGeometry g = true ↔
    g.assoc ∈ [1, 2, 4, 8, 16] ∧ g.block ∈ [1, 2, 4, 8, 16, 32, 64] ∧
      g.assoc * g.block ∣ g.capacity ∧ 1 ≤ g.capacity / (g.assoc * g.block) := by
  simp only [legalGeometry, Bool.and_eq_true, List.contains_iff_mem, beq_iff_eq, decide_eq_true_eq,
    and_assoc, Nat.dvd_iff_mod_eq_zero]
  rfl

/-- The row count of a legal geometry divides its capacity exactly (R122). -/
theorem rowCount_mul {g : Geometry} (h : legalGeometry g = true) :
    rowCount g * (g.assoc * g.block) = g.capacity := by
  obtain ⟨-, -, hdvd, -⟩ := (legalGeometry_iff g).1 h
  exact Nat.div_mul_cancel hdvd

/-- The tags a legal geometry has room for are as many as its blocks. -/
theorem rowCount_mul_assoc {g : Geometry} (h : legalGeometry g = true) :
    rowCount g * g.assoc = g.capacity / g.block := by
  obtain ⟨-, hblock, -⟩ := legalGeometry_pos h
  rw [← rowCount_mul h, ← Nat.mul_assoc, Nat.mul_div_cancel _ hblock]

/-- Row and tag are the remainder and the quotient of the block number (R124). -/
theorem tagOf_mul_add_rowOf (g : Geometry) (a : MemIndex) :
    tagOf g a * rowCount g + rowOf g a = a.toNat / g.block :=
  Nat.div_add_mod' (blockId g a) (rowCount g)

/-- Two addresses share row and tag exactly when they are in one block. -/
theorem rowOf_tagOf_eq_iff (g : Geometry) (a b : MemIndex) :
    (rowOf g a = rowOf g b ∧ tagOf g a = tagOf g b) ↔ a.toNat / g.block = b.toNat / g.block := by
  constructor
  · rintro ⟨hrow, htag⟩
    rw [← tagOf_mul_add_rowOf, ← tagOf_mul_add_rowOf, hrow, htag]
  · intro h
    have hid : blockId g a = blockId g b := h
    exact ⟨congrArg (· % rowCount g) hid, congrArg (· / rowCount g) hid⟩

/-- With powers of two, row and tag are bit slices of the address (R124). -/
theorem rowOf_tagOf_of_two_pow {g : Geometry} {o n : Nat} (hblock : g.block = 2 ^ o)
    (hrows : rowCount g = 2 ^ n) (a : MemIndex) :
    rowOf g a = (a.toNat >>> o) % 2 ^ n ∧ tagOf g a = a.toNat >>> (o + n) := by
  have hid : blockId g a = a.toNat >>> o := by rw [blockId, hblock, Nat.shiftRight_eq_div_pow]
  rw [rowOf, tagOf, hid, hrows, Nat.shiftRight_add, Nat.shiftRight_eq_div_pow (a.toNat >>> o)]
  exact ⟨rfl, rfl⟩

/-! ### Touch (R128) -/

section

variable {row : Row} {tag n : Nat}

theorem touch_of_mem (h : tag ∈ row) : touch n row tag = row.erase tag ++ [tag] := by
  simp [touch, h]

theorem touch_of_full (h : tag ∉ row) (hlen : row.length = n) :
    touch n row tag = row.tail ++ [tag] := by
  simp [touch, h, hlen]

theorem touch_of_room (h : tag ∉ row) (hlen : row.length ≠ n) :
    touch n row tag = row ++ [tag] := by
  simp [touch, h, hlen]

/-- A touch puts the tag behind others of the row, whose order it keeps (R128). -/
theorem exists_sublist_touch (n : Nat) (row : Row) (tag : Nat) :
    ∃ others, others.Sublist row ∧ touch n row tag = others ++ [tag] := by
  by_cases hmem : tag ∈ row
  · exact ⟨_, List.erase_sublist, touch_of_mem hmem⟩
  by_cases hlen : row.length = n
  · exact ⟨_, List.tail_sublist row, touch_of_full hmem hlen⟩
  · exact ⟨_, .refl row, touch_of_room hmem hlen⟩

/-- The touched tag is the most recently used of its row (R128). -/
theorem touch_getLast? (n : Nat) (row : Row) (tag : Nat) :
    (touch n row tag).getLast? = some tag := by
  obtain ⟨others, -, htouch⟩ := exists_sublist_touch n row tag
  simp [htouch]

/-- The order of the tags other than the touched one is kept (R128). -/
theorem touch_dropLast_sublist (n : Nat) (row : Row) (tag : Nat) :
    (touch n row tag).dropLast.Sublist row := by
  obtain ⟨others, hsub, htouch⟩ := exists_sublist_touch n row tag
  simpa [htouch] using hsub

/-- Touching a present tag evicts nothing: the row is permuted (R128, decision D17). -/
theorem touch_perm (h : tag ∈ row) : (touch n row tag).Perm row := by
  rw [touch_of_mem h]
  exact (List.perm_append_singleton _ _).trans (List.perm_cons_erase h).symm

end

/-! ### The accesses to one cache (R129, R130) -/

theorem readAccess_kind (g : Geometry) (rows : Rows) (a : MemIndex) :
    (readAccess g rows a).kind = if isCached g rows a then .hit else .miss := rfl

@[simp] theorem readAccess_kind_eq_hit (g : Geometry) (rows : Rows) (a : MemIndex) :
    (readAccess g rows a).kind = .hit ↔ isCached g rows a = true := by
  cases h : isCached g rows a <;> simp [readAccess_kind, h]

@[simp] theorem readAccess_kind_eq_miss (g : Geometry) (rows : Rows) (a : MemIndex) :
    (readAccess g rows a).kind = .miss ↔ isCached g rows a = false := by
  cases h : isCached g rows a <;> simp [readAccess_kind, h]

/-- A read access never reports SW (R139). -/
theorem readAccess_kind_ne_sw (g : Geometry) (rows : Rows) (a : MemIndex) :
    (readAccess g rows a).kind ≠ .sw := by
  cases h : isCached g rows a <;> simp [readAccess_kind, h]

/-- A cache has the row of every address (R124). -/
theorem exists_row_of_wf {g : Geometry} {rows : Rows} (hg : legalGeometry g = true)
    (hwf : RowsWf g rows) (a : MemIndex) : ∃ row, rows[rowOf g a]? = some row := by
  obtain ⟨-, -, hcount⟩ := legalGeometry_pos hg
  obtain ⟨hlen, -⟩ := hwf
  exact ⟨_, List.getElem?_eq_getElem (hlen ▸ rowOf_lt hcount a)⟩

section

variable {g : Geometry} {rows : Rows} {a : MemIndex} {row : Row}

/-- An address is cached exactly when its row holds its tag (R127). -/
theorem isCached_iff (hrow : rows[rowOf g a]? = some row) :
    isCached g rows a = true ↔ tagOf g a ∈ row := by
  simp [isCached, hrow]

/-- An access touches the row of its address and keeps every other row (R129, R130). -/
theorem touchRows_getElem? (hrow : rows[rowOf g a]? = some row) (k : Nat) :
    (touchRows g rows a)[k]? =
      if k = rowOf g a then some (touch g.assoc row (tagOf g a)) else rows[k]? := by
  obtain ⟨hlt, -⟩ := List.getElem?_eq_some_iff.1 hrow
  by_cases hk : k = rowOf g a
  · rw [if_pos hk, hk, touchRows, List.getD_eq_getElem?_getD, hrow, List.getElem?_set_self hlt]
    rfl
  · rw [if_neg hk, touchRows, List.getElem?_set_ne (Ne.symm hk)]

/-- After an access every address of the same block is cached (R129, R130). -/
theorem isCached_touchRows (hrow : rows[rowOf g a]? = some row) {b : MemIndex}
    (hblock : a.toNat / g.block = b.toNat / g.block) :
    isCached g (touchRows g rows a) b = true := by
  obtain ⟨hrowOf, htagOf⟩ := (rowOf_tagOf_eq_iff g a b).2 hblock
  have htouched : (touchRows g rows a)[rowOf g b]? = some (touch g.assoc row (tagOf g a)) := by
    rw [touchRows_getElem? hrow, if_pos hrowOf.symm]
  rw [isCached_iff htouched, ← htagOf]
  exact self_mem_touch _ _ _

end

/-! ### The chain of L1 and L2 (R136, R137) -/

@[simp] theorem commitL1_rows1 (s : State) (r : AccessResult) (a : MemIndex) (p : Word) :
    (s.commitL1 r a p).rows1 = r.rows := rfl
@[simp] theorem commitL1_rows2 (s : State) (r : AccessResult) (a : MemIndex) (p : Word) :
    (s.commitL1 r a p).rows2 = s.rows2 := rfl
@[simp] theorem commitL2_rows1 (s : State) (r : AccessResult) (a : MemIndex) (p : Word) :
    (s.commitL2 r a p).rows1 = s.rows1 := rfl
@[simp] theorem commitL2_rows2 (s : State) (r : AccessResult) (a : MemIndex) (p : Word) :
    (s.commitL2 r a p).rows2 = r.rows := rfl

section

variable {s : State} {g1 g2 : Geometry} (a : MemIndex) (p : Word)

theorem cacheRead_of_one (h : s.config = .one g1) :
    s.cacheRead a p = s.commitL1 (readAccess g1 s.rows1 a) a p := by
  simp [State.cacheRead, h]

theorem cacheRead_of_two_hit (h : s.config = .two g1 g2) {a : MemIndex}
    (hit : isCached g1 s.rows1 a = true) :
    s.cacheRead a p = s.commitL1 (readAccess g1 s.rows1 a) a p := by
  simp [State.cacheRead, h, hit]

theorem cacheRead_of_two_miss (h : s.config = .two g1 g2) {a : MemIndex}
    (miss : isCached g1 s.rows1 a = false) :
    s.cacheRead a p =
      (s.commitL1 (readAccess g1 s.rows1 a) a p).commitL2 (readAccess g2 s.rows2 a) a p := by
  simp [State.cacheRead, h, miss]

theorem cacheWrite_of_one (h : s.config = .one g1) :
    s.cacheWrite a p = s.commitL1 (writeAccess g1 s.rows1 a) a p := by
  simp [State.cacheWrite, h]

theorem cacheWrite_of_two (h : s.config = .two g1 g2) :
    s.cacheWrite a p =
      (s.commitL1 (writeAccess g1 s.rows1 a) a p).commitL2 (writeAccess g2 s.rows2 a) a p := by
  simp [State.cacheWrite, h]

end

/-- A load's cache access changes L2's rows only when two caches are configured and L1 misses
(R136). -/
theorem cacheRead_rows2_ne {s : State} {a : MemIndex} {p : Word}
    (h : (s.cacheRead a p).rows2 ≠ s.rows2) :
    ∃ g1 g2, s.config = .two g1 g2 ∧ isCached g1 s.rows1 a = false := by
  cases hc : s.config with
  | none => exact absurd (by rw [cacheRead_of_no_cache hc]) h
  | one g1 => exact absurd (by rw [cacheRead_of_one a p hc, commitL1_rows2]) h
  | two g1 g2 =>
    cases hcached : isCached g1 s.rows1 a with
    | true => exact absurd (by rw [cacheRead_of_two_hit p hc hcached, commitL1_rows2]) h
    | false => exact ⟨g1, g2, rfl, hcached⟩

/-- A store's cache access changes L2's rows only when two caches are configured (R137). -/
theorem cacheWrite_rows2_ne {s : State} {a : MemIndex} {p : Word}
    (h : (s.cacheWrite a p).rows2 ≠ s.rows2) : ∃ g1 g2, s.config = .two g1 g2 := by
  cases hc : s.config with
  | none => exact absurd (by rw [cacheWrite_of_no_cache hc]) h
  | one g1 => exact absurd (by rw [cacheWrite_of_one a p hc, commitL1_rows2]) h
  | two g1 g2 => exact ⟨g1, g2, rfl⟩

/-- The geometry of L1, when a cache is configured (R121). -/
def l1Geometry : CacheConfig → Option Geometry
  | .none => none
  | .one g1 => some g1
  | .two g1 _ => some g1

/-- Every load and store touches L1's row of its address, whatever L2 is (R136, R137, R142). -/
theorem cacheOp_rows1 {s : State} {g1 : Geometry} (h : l1Geometry s.config = some g1)
    (o : CacheOp) : (s.cacheOp o).rows1 = touchRows g1 s.rows1 o.address := by
  obtain ⟨store, a, p⟩ := o
  cases hc : s.config with
  | none => simp [hc, l1Geometry] at h
  | one g =>
    obtain rfl : g = g1 := by simpa [hc, l1Geometry] using h
    cases store with
    | true => simp [State.cacheOp, cacheWrite_of_one a p hc]
    | false => simp [State.cacheOp, cacheRead_of_one a p hc]
  | two g g2 =>
    obtain rfl : g = g1 := by simpa [hc, l1Geometry] using h
    cases store with
    | true => simp [State.cacheOp, cacheWrite_of_two a p hc]
    | false =>
      cases hcached : isCached g s.rows1 a with
      | true => simp [State.cacheOp, cacheRead_of_two_hit p hc hcached]
      | false => simp [State.cacheOp, cacheRead_of_two_miss p hc hcached]

@[simp] theorem cacheOp_config (s : State) (o : CacheOp) : (s.cacheOp o).config = s.config := by
  unfold State.cacheOp
  split
  · exact cacheWrite_config ..
  · exact cacheRead_config ..

/-- L1's rows after a sequence of accesses depend on L1's geometry, its rows and the sequence alone
(R142). -/
theorem cacheOps_rows1_congr {s t : State} {g1 : Geometry} (hs : l1Geometry s.config = some g1)
    (ht : l1Geometry t.config = some g1) (hrows : t.rows1 = s.rows1) (ops : List CacheOp) :
    (t.cacheOps ops).rows1 = (s.cacheOps ops).rows1 := by
  induction ops generalizing s t with
  | nil => exact hrows
  | cons o rest ih =>
    refine ih (s := s.cacheOp o) (t := t.cacheOp o) ?_ ?_ ?_
    · rwa [cacheOp_config]
    · rwa [cacheOp_config]
    · rw [cacheOp_rows1 hs, cacheOp_rows1 ht, hrows]

/-! ### What rows and events depend on (R141) -/

/-- The cache model of two states is alike but for the program counters their events carry. -/
structure SameTraceButPc (s t : State) : Prop where
  config : t.config = s.config
  rows1 : t.rows1 = s.rows1
  rows2 : t.rows2 = s.rows2
  events : t.events.map Event.withoutPc = s.events.map Event.withoutPc

namespace SameTraceButPc

variable {s t : State} (h : SameTraceButPc s t)
include h

theorem commitL1 (r : AccessResult) (a : MemIndex) (p q : Word) :
    SameTraceButPc (s.commitL1 r a p) (t.commitL1 r a q) :=
  ⟨h.config, rfl, h.rows2, by simp [h.events, Event.withoutPc]⟩

theorem commitL2 (r : AccessResult) (a : MemIndex) (p q : Word) :
    SameTraceButPc (s.commitL2 r a p) (t.commitL2 r a q) :=
  ⟨h.config, h.rows1, rfl, by simp [h.events, Event.withoutPc]⟩

theorem cacheRead (a : MemIndex) (p q : Word) :
    SameTraceButPc (s.cacheRead a p) (t.cacheRead a q) := by
  cases hc : s.config with
  | none =>
    rwa [cacheRead_of_no_cache hc, cacheRead_of_no_cache (h.config.trans hc)]
  | one g1 =>
    rw [cacheRead_of_one a p hc, cacheRead_of_one a q (h.config.trans hc), h.rows1]
    exact h.commitL1 _ a p q
  | two g1 g2 =>
    have hc' := h.config.trans hc
    cases hcached : isCached g1 s.rows1 a with
    | true =>
      rw [cacheRead_of_two_hit p hc hcached, cacheRead_of_two_hit q hc' (by rwa [h.rows1]), h.rows1]
      exact h.commitL1 _ a p q
    | false =>
      rw [cacheRead_of_two_miss p hc hcached, cacheRead_of_two_miss q hc' (by rwa [h.rows1]),
        h.rows1, h.rows2]
      exact (h.commitL1 _ a p q).commitL2 _ a p q

theorem cacheWrite (a : MemIndex) (p q : Word) :
    SameTraceButPc (s.cacheWrite a p) (t.cacheWrite a q) := by
  cases hc : s.config with
  | none =>
    rwa [cacheWrite_of_no_cache hc, cacheWrite_of_no_cache (h.config.trans hc)]
  | one g1 =>
    rw [cacheWrite_of_one a p hc, cacheWrite_of_one a q (h.config.trans hc), h.rows1]
    exact h.commitL1 _ a p q
  | two g1 g2 =>
    rw [cacheWrite_of_two a p hc, cacheWrite_of_two a q (h.config.trans hc), h.rows1, h.rows2]
    exact (h.commitL1 _ a p q).commitL2 _ a p q

theorem cacheOp {o o' : CacheOp} (hstore : o.store = o'.store) (haddr : o.address = o'.address) :
    SameTraceButPc (s.cacheOp o) (t.cacheOp o') := by
  rw [State.cacheOp, State.cacheOp, hstore, haddr]
  split
  · exact h.cacheWrite ..
  · exact h.cacheRead ..

theorem cacheOps {as bs : List CacheOp}
    (hops : as.map (fun o => (o.store, o.address)) = bs.map (fun o => (o.store, o.address))) :
    SameTraceButPc (s.cacheOps as) (t.cacheOps bs) := by
  induction as generalizing s t bs with
  | nil =>
    obtain rfl : bs = [] := by simpa using hops.symm
    exact h
  | cons o rest ih =>
    obtain _ | ⟨o', rest'⟩ := bs
    · cases hops
    · obtain ⟨ho, hrest⟩ := List.cons.inj hops
      obtain ⟨hstore, haddr⟩ := Prod.mk.inj ho
      exact ih (h.cacheOp hstore haddr) hrest

end SameTraceButPc

/-- Rows and events after a sequence of accesses depend on the configuration, the rows, the events
and the sequence alone (R141). -/
theorem cacheOps_trace {s t : State} (hc : t.config = s.config) (h : SameTrace s t)
    (ops : List CacheOp) : SameTrace (s.cacheOps ops) (t.cacheOps ops) := by
  induction ops generalizing s t with
  | nil => exact h
  | cons o rest ih =>
    refine ih (s := s.cacheOp o) (t := t.cacheOp o) (by simpa using hc) ?_
    unfold State.cacheOp
    split
    · exact cacheWrite_trace hc h _ _
    · exact cacheRead_trace hc h _ _

/-! ### The events of an instruction (R138 to R140) -/

/-- An instruction other than `lw` and `sw` leaves rows and events (R120, R139). -/
theorem exec_sameTrace {i : Instr} {s t : State} (h : exec i s = .next t)
    (hlw : ∀ src dst imm7, i ≠ .lw src dst imm7) (hsw : ∀ src dst imm7, i ≠ .sw src dst imm7) :
    SameTrace s t := by
  cases exec_eq_next_iff.1 h with
  | @alu _ d v => exact (writeAndAdvance_wroteReg s d v).trace
  | lw src dst imm7 => exact absurd rfl (hlw src dst imm7)
  | sw src dst imm7 => exact absurd rfl (hsw src dst imm7)
  | j => simp [SameTrace, haltIfSelf_eq]
  | jr | jal | jeq | reserved => simp [SameTrace]

/-- An instruction is a `lw`, a `sw`, or one that leaves rows and events (R139). -/
theorem lw_or_sw_or_sameTrace {i : Instr} {s t : State} (h : exec i s = .next t) :
    (∃ src dst imm7, i = .lw src dst imm7) ∨ (∃ src dst imm7, i = .sw src dst imm7) ∨
      (∀ src dst imm7, i ≠ .lw src dst imm7) ∧ (∀ src dst imm7, i ≠ .sw src dst imm7) ∧
        SameTrace s t := by
  by_cases hlw : ∃ src dst imm7, i = .lw src dst imm7
  · exact .inl hlw
  by_cases hsw : ∃ src dst imm7, i = .sw src dst imm7
  · exact .inr (.inl hsw)
  push Not at hlw hsw
  exact .inr (.inr ⟨hlw, hsw, exec_sameTrace h hlw hsw⟩)

/-- The events of a load's cache access name L1 and then L2 (R136, decision D16). -/
theorem loadEvents_cacheName (s : State) (a : MemIndex) (p : Word) :
    (loadEvents s a p).map Event.cacheName <+: [.l1, .l2] := by
  unfold loadEvents
  split
  · exact List.nil_prefix
  · exact ⟨[.l2], rfl⟩
  · split
    · exact List.prefix_rfl
    · exact ⟨[.l2], rfl⟩

/-- The events of a store's cache access name L1 and then L2 (R137, decision D16). -/
theorem storeEvents_cacheName (c : CacheConfig) (a : MemIndex) (p : Word) :
    (storeEvents c a p).map Event.cacheName <+: [.l1, .l2] := by
  cases c with
  | none => exact List.nil_prefix
  | one => exact ⟨[.l2], rfl⟩
  | two => exact List.prefix_rfl

/-- A load emits as many events as the caches it accesses (R140). -/
theorem loadEvents_length (s : State) (a : MemIndex) (p : Word) :
    (loadEvents s a p).length = loadEventCount s a := by
  unfold loadEvents loadEventCount
  cases s.config with
  | none => rfl
  | one => rfl
  | two g1 g2 => cases hcached : isCached g1 s.rows1 a <;> simp [hcached]

theorem readEvent_kind_ne_sw (n : CacheName) (g : Geometry) (rows : Rows) (a : MemIndex)
    (p : Word) : (readEvent n g rows a p).kind ≠ .sw :=
  readAccess_kind_ne_sw g rows a

/-- No event of a load's cache access is of kind SW (R139). -/
theorem kind_ne_sw_of_mem_loadEvents {s : State} {a : MemIndex} {p : Word} {e : Event}
    (h : e ∈ loadEvents s a p) : e.kind ≠ .sw := by
  unfold loadEvents at h
  split at h
  · cases h
  · rw [List.mem_singleton.1 h]
    exact readEvent_kind_ne_sw _ _ _ _ _
  · split at h
    · obtain rfl | rfl := List.mem_pair.1 h
      · exact readEvent_kind_ne_sw _ _ _ _ _
      · exact readEvent_kind_ne_sw _ _ _ _ _
    · rw [List.mem_singleton.1 h]
      exact readEvent_kind_ne_sw _ _ _ _ _

/-! ### The obligations -/

/-- Settles O43: quotient and remainder of the block number (`tagOf_mul_add_rowOf`,
`rowOf_tagOf_eq_iff`), and with powers of two its bits (`rowOf_tagOf_of_two_pow`). -/
theorem rowAndTagIdentifyTheBlock : Obligations.RowAndTagIdentifyTheBlock := by
  intro g hg a
  obtain ⟨-, -, hcount⟩ := legalGeometry_pos hg
  exact ⟨tagOf_mul_add_rowOf g a, rowOf_lt hcount a, tagOf_le g a, rowOf_tagOf_eq_iff g a,
    fun o n hblock hrows => rowOf_tagOf_of_two_pow hblock hrows a⟩

/-- Settles O44, by the three cases of a touch and what they have in common
(`exists_sublist_touch`). -/
theorem touchIsLeastRecentlyUsed : Obligations.TouchIsLeastRecentlyUsed := by
  intro n row tag hn hnodup hlen
  refine ⟨fun hmem => ⟨?_, (touch_perm hmem).length_eq⟩, touch_of_full,
    fun hmem hroom => touch_of_room hmem hroom.ne, touch_dropLast_sublist n row tag,
    touch_getLast? n row tag, touch_nodup hnodup tag, touch_length_le hn hlen tag⟩
  rw [touch_of_mem hmem, hnodup.erase_eq_filter]
  simp [bne, beq_eq_decide]

/-- Settles O45: the row exists (`exists_row_of_wf`), its tag decides the kind (`isCached_iff`), and
the access touches it (`touchRows_getElem?`, `touch_perm`, `isCached_touchRows`). -/
theorem readAccessRule : Obligations.ReadAccessRule := by
  intro g rows a hg hwf
  obtain ⟨row, hrow⟩ := exists_row_of_wf hg hwf a
  refine ⟨row, hrow, ?_, rfl, touchRows_getElem? hrow, fun hmem => ?_, fun b hblock => ?_⟩
  · simp only [readAccess_kind, isCached_iff hrow]
  · have hperm : (touch g.assoc row (tagOf g a)).Perm row := touch_perm hmem
    exact ⟨hperm.length_eq, fun x hx => hperm.mem_iff.2 hx⟩
  · exact (readAccess_kind_eq_hit ..).2 (isCached_touchRows hrow hblock)

/-- Settles O46: as for a read (`exists_row_of_wf`, `touchRows_getElem?`, `isCached_touchRows`), the
tag last in its row (`touch_getLast?`) and nothing evicted when it is present (`touch_perm`). -/
theorem writeAccessRule : Obligations.WriteAccessRule := by
  intro g rows a hg hwf
  obtain ⟨row, hrow⟩ := exists_row_of_wf hg hwf a
  exact ⟨row, hrow, rfl, rfl, touchRows_getElem? hrow, touch_getLast? _ _ _,
    fun hmem x hx => (touch_perm hmem).mem_iff.2 hx,
    fun b hblock => (readAccess_kind_eq_hit ..).2 (isCached_touchRows hrow hblock)⟩

/-- Settles O49: a `lw` appends `loadEvents`, a `sw` appends `storeEvents`, and every other
instruction appends nothing (`lw_or_sw_or_sameTrace`). -/
theorem eventsOfEachInstruction : Obligations.EventsOfEachInstruction := by
  intro i s t h
  obtain ⟨src, dst, imm7, rfl⟩ | ⟨src, dst, imm7, rfl⟩ | ⟨hlw, hsw, -, -, hevents⟩ :=
    lw_or_sw_or_sameTrace h
  · refine ⟨_, exec_lw_events h, fun e he => (pc_address_of_mem_loadEvents he).1,
      loadEvents_cacheName .., fun _ => .inl ⟨_, _, _, rfl⟩, nofun, ?_⟩
    rintro _ _ _ ⟨⟩
    exact ⟨fun e he => ⟨kind_ne_sw_of_mem_loadEvents he, (pc_address_of_mem_loadEvents he).2⟩,
      loadEvents_length ..⟩
  · refine ⟨_, exec_sw_events h, fun e he => (kind_pc_address_of_mem_storeEvents he).2.1,
      storeEvents_cacheName .., fun _ => .inr ⟨_, _, _, rfl⟩, ?_, nofun⟩
    rintro _ _ _ ⟨⟩
    refine ⟨fun e he => ?_, storeEvents_length ..⟩
    obtain ⟨hkind, -, haddr⟩ := kind_pc_address_of_mem_storeEvents he
    exact ⟨hkind, haddr⟩
  · exact ⟨[], by simpa using hevents, nofun, List.nil_prefix, fun hne => absurd rfl hne,
      fun src dst imm7 hi => absurd hi (hsw src dst imm7),
      fun src dst imm7 hi => absurd hi (hlw src dst imm7)⟩

/-- Settles O50: each access keeps the two states alike but for the events' pc
(`SameTraceButPc.cacheOps`), and the same accesses keep them wholly alike (`cacheOps_trace`). -/
theorem cacheStateIsAFunctionOfTheAccesses : Obligations.CacheStateIsAFunctionOfTheAccesses := by
  intro s s' as bs hconfig hrows1 hrows2 hevents hops
  have hsame : SameTraceButPc s s' := ⟨hconfig, hrows1, hrows2, by rw [hevents]⟩
  have hafter := hsame.cacheOps hops
  refine ⟨hafter.rows1, hafter.rows2, hafter.events, ?_⟩
  rintro rfl
  obtain ⟨-, -, h⟩ := cacheOps_trace hconfig ⟨hrows1, hrows2, hevents⟩ as
  exact h

/-- Settles O51: L1's rows follow L1's geometry alone (`cacheOps_rows1_congr`); a step that changes
L2's rows made the access of a `sw` (`cacheWrite_rows2_ne`) or of a `lw` that misses L1
(`cacheRead_rows2_ne`). -/
theorem cacheLevelsAreIndependent : Obligations.CacheLevelsAreIndependent := by
  refine ⟨fun s s' g1 g2 ops hs hs' hrows => ?_, fun s t hstep hne => ?_⟩
  · have hl1 : l1Geometry s'.config = some g1 := by
      obtain h | ⟨g, h⟩ := hs' <;> rw [h] <;> rfl
    exact cacheOps_rows1_congr (by rw [hs]; rfl) hl1 hrows ops
  · obtain ⟨-, ⟨-, rfl⟩ | ⟨-, hexec⟩⟩ := step_next hstep
    · exact absurd rfl hne
    obtain ⟨src, dst, imm7, hi⟩ | ⟨src, dst, imm7, hi⟩ | ⟨-, -, -, hrows2, -⟩ :=
      lw_or_sw_or_sameTrace hexec
    · rw [hi] at hexec
      obtain ⟨-, hrows2, -⟩ := exec_lw_trace hexec
      obtain ⟨g1, g2, hc, hmiss⟩ := cacheRead_rows2_ne (hrows2 ▸ hne)
      exact ⟨g1, g2, hc, .inr ⟨src, dst, imm7, hi, hmiss⟩⟩
    · rw [hi] at hexec
      obtain ⟨-, hrows2, -⟩ := exec_sw_trace hexec
      obtain ⟨g1, g2, hc⟩ := cacheWrite_rows2_ne (hrows2 ▸ hne)
      exact ⟨g1, g2, hc, .inl ⟨src, dst, imm7, hi⟩⟩
    · exact absurd hrows2 hne

/-- Settles O6: the conditions are `legalGeometry_iff`, the row count `rowCount_mul` and
`rowCount_mul_assoc`; `configure` sets four fields (`configure_eq_next`) and, like the step, tests
the configuration first. -/
theorem illegalConfigurationsAreRefused : Obligations.IllegalConfigurationsAreRefused := by
  refine ⟨legalGeometry_iff, fun g hg => ⟨rfl, rowCount_mul hg, rowCount_mul_assoc hg⟩, rfl,
    fun _ => rfl, fun _ _ => rfl, fun s c strict hc => ?_, rfl, rfl, fun _ => ⟨rfl, rfl⟩,
    fun _ _ => ⟨rfl, rfl⟩, fun s c strict hc => ?_, fun s hs => ?_, by decide⟩
  · exact ⟨_, (configure_eq_next s _ c strict).2 ⟨hc, rfl⟩, rfl, rfl, rfl, rfl, fun _ => rfl,
      fun _ => rfl, rfl, rfl, rfl⟩
  · rw [State.configure, hc]; rfl
  · rw [step, hs]; rfl

/-- Settles O47: one equation per configuration and kind (`cacheRead_of_one`,
`cacheRead_of_two_hit`, `cacheRead_of_two_miss`). -/
theorem loadAccessesL2OnL1MissOnly : Obligations.LoadAccessesL2OnL1MissOnly := by
  intro s a p
  refine ⟨cacheRead_reg s a p, memRead_congr (cacheRead_mem s a p), cacheRead_pc s a p,
    cacheRead_halted s a p, ⟨cacheRead_config s a p, cacheRead_strictDecode s a p⟩,
    fun hc => cacheRead_of_no_cache hc a p, fun g1 hc => ?_, fun g1 g2 hc => ⟨?_, ?_, ?_⟩⟩
  · rw [cacheRead_of_one a p hc]
    exact ⟨rfl, rfl, rfl⟩
  · exact cacheOp_rows1 (by rw [hc]; rfl) ⟨false, a, p⟩
  · intro hkind
    rw [cacheRead_of_two_hit p hc ((readAccess_kind_eq_hit ..).1 hkind), ← hkind]
    exact ⟨rfl, rfl⟩
  · intro hkind
    rw [cacheRead_of_two_miss p hc ((readAccess_kind_eq_miss ..).1 hkind), ← hkind]
    exact ⟨rfl, List.append_assoc ..⟩

/-- Settles O48: one equation per configuration (`cacheWrite_of_one`, `cacheWrite_of_two`). -/
theorem storeAccessesEveryCache : Obligations.StoreAccessesEveryCache := by
  intro s a p
  refine ⟨cacheWrite_reg s a p, memRead_congr (cacheWrite_mem s a p), cacheWrite_pc s a p,
    cacheWrite_halted s a p, ⟨cacheWrite_config s a p, cacheWrite_strictDecode s a p⟩,
    fun hc => cacheWrite_of_no_cache hc a p, fun g1 hc => ?_, fun g1 g2 hc => ?_⟩
  · rw [cacheWrite_of_one a p hc]
    exact ⟨rfl, rfl, rfl⟩
  · rw [cacheWrite_of_two a p hc]
    exact ⟨rfl, rfl, List.append_assoc ..⟩

/-- Settles O52: each touch is one of the three cases, by whether the tag is present and the row
full. -/
theorem lruEvictsTheLeastRecentlyUsed : Obligations.LruEvictsTheLeastRecentlyUsed := by
  intro A B C hAB hAC hBC
  refine ⟨touch_of_room (by simp) (by simp), touch_of_room (by simpa using hAB.symm) (by simp),
    touch_of_full (by simp [hAC.symm, hBC.symm]) rfl, ?_, ?_,
    touch_of_full (by simp [hAC.symm, hBC.symm]) rfl⟩
  · rw [touch_of_mem (by simp)]
    simp [hAB]
  · rw [touch_of_mem (by simp)]
    simp

end Sys2Proof.Machine

/-! PROOFS. The rules of 60_exceptions.md: the machine stops on a reserved word in strict mode (R158) and
under an illegal configuration (R123), and for no other reason (R150, R154). -/

namespace Sys2Proof.Machine

open Sys2Proof

/-! ### The stops of a step -/

/-- Every instruction has a meaning: none is refused. The reserved ones fault or advance (R76, R158);
the others answer a next state. -/
theorem exec_ne_refused (i : Instr) (s : State) (r : Refusal) : exec i s ≠ .refused r := by
  cases i with
  | rsvdF5 | rsvdF6_7 | rsvdF9 | rsvdF10_11 | rsvdF12_15 =>
    rw [exec_of_isReserved rfl, unknownOpcode]
    split <;> nofun
  | _ => nofun

/-- A step that is refused is refused for an illegal configuration (R123). -/
theorem step_refused {s : State} {r : Refusal} (h : step s = .refused r) :
    r = .illegalConfiguration ∧ legalConfig s.config = false := by
  unfold step at h
  split at h
  · split at h
    · cases h
    · exact absurd h (exec_ne_refused _ _ _)
  · next hl => cases h; exact ⟨rfl, by simpa using hl⟩

/-- Settles O41: a step that faults carried out an instruction that faults (`step_fault`), which is a
reserved one in strict mode (`exec_eq_fault_iff`); a refusal is `step_refused`. -/
theorem everyStopIsNamed : Obligations.EveryStopIsNamed := by
  refine ⟨fun s f hf => ?_, fun s r => step_refused⟩
  obtain ⟨-, hready, hexec⟩ := step_fault hf
  obtain ⟨hreserved, hstrict, hillegal⟩ := exec_eq_fault_iff.1 hexec
  exact ⟨hillegal, hstrict, hready, hreserved⟩

/-! ### Runs in the default mode -/

/-- In the default mode, under a legal configuration, a step answers a next state: both stops are
excluded (`everyStopIsNamed`). -/
theorem step_lenient {s : State} (hl : legalConfig s.config = true)
    (hs : s.strictDecode = false) : ∃ t, step s = .next t := by
  obtain ⟨hfault, hrefused⟩ := everyStopIsNamed
  cases h : step s with
  | next t => exact ⟨t, rfl⟩
  | fault f =>
    obtain ⟨-, hstrict, -, -⟩ := hfault s f h
    exact absurd hstrict (by simp [hs])
  | refused r =>
    obtain ⟨-, hillegal⟩ := hrefused s r h
    exact absurd hl (by simp [hillegal])

/-- Settles O40, by induction on the number of steps: the first step answers a next state
(`step_lenient`), which has the same configuration and decode mode (`step_sameParams`). -/
theorem lenientRunNeverStops : Obligations.LenientRunNeverStops := by
  intro k
  induction k with
  | zero => exact fun s _ _ => ⟨s, rfl⟩
  | succ k ih =>
    intro s hl hs
    obtain ⟨u, hu⟩ := step_lenient hl hs
    obtain ⟨-, hstrict⟩ := step_sameParams hu
    rw [run_succ_of_next hu]
    exact ih u (step_legalConfig hl hu) (hstrict.trans hs)

end Sys2Proof.Machine

/-! PROOFS. The sample words of 95_test_vectors.md (VD1 to VD10). -/

namespace Sys2Proof

/-- Settles O17: each word is the encoding of its instruction (`decode_eq_of_encode_eq`). -/
theorem sampleWordsDecode : Obligations.SampleWordsDecode := by
  refine ⟨?_, ?_, ?_, ?_, ?_, ?_, ?_, ?_, ?_, ?_⟩
  all_goals exact decode_eq_of_encode_eq rfl rfl

end Sys2Proof

/-! PROOFS. The model's invariant `Inv`: it holds after reset (10_state.md R28), the host's transactions
keep it (70_reset_and_hazards.md section 1), and every step keeps it (45_cache_model.md R123, R126,
R138). -/

namespace Sys2Proof.Machine

open Sys2Proof

/-- L1 is configured alone or before L2 (R121). -/
theorem l1Geometry_eq_some {c : CacheConfig} {g1 : Geometry} (h : l1Geometry c = some g1) :
    c = .one g1 ∨ ∃ g2, c = .two g1 g2 := by
  cases c with
  | none => cases h
  | one => cases h; exact .inl rfl
  | two _ g2 => cases h; exact .inr ⟨g2, rfl⟩

/-! ### The invariant under the state's operations -/

namespace Inv

variable {s : State} (h : Inv s)
include h

theorem setPc (p : Word) : Inv (s.setPc p) :=
  ⟨h.mem, h.zero, h.legal, h.caches, h.events⟩

theorem advance : Inv s.advance := h.setPc _

theorem setHalted (b : Bool) : Inv (s.setHalted b) :=
  ⟨h.mem, h.zero, h.legal, h.caches, h.events⟩

theorem haltIfSelf (p : Word) : Inv (s.haltIfSelf p) := by
  rw [haltIfSelf_eq]
  exact h.setHalted _

/-- The slot behind register 0 is never written (notes/assumptions/12.md). -/
theorem writeReg (d : RegIdx) (v : Word) : Inv (s.writeReg d v) := by
  obtain ⟨hmem, hzero, hlegal, hcaches, hevents⟩ := h
  exact ⟨by simpa, (writeReg_zero_slot s d v).trans hzero, by simpa, by simpa, by simpa⟩

theorem writeAndAdvance (d : RegIdx) (v : Word) : Inv (s.writeAndAdvance d v) :=
  (h.writeReg d v).advance

theorem setMem {m : Memory} (hm : m.wf) : Inv (s.setMem m) :=
  ⟨hm, h.zero, h.legal, h.caches, h.events⟩

theorem memWrite (a : MemIndex) (v : Word) : Inv (s.memWrite a v) :=
  h.setMem (Memory.write_wf h.mem (memIndex_lt a) v)

theorem emit {e : Event} (he : EventWf s.config e) : Inv (s.emit e) := by
  refine ⟨h.mem, h.zero, h.legal, h.caches, fun e' he' => ?_⟩
  obtain hold | hnew := List.mem_append.1 he'
  · exact h.events e' hold
  · rwa [List.mem_singleton.1 hnew]

/-! ### The invariant under the accesses of the caches -/

/-- A configured L1 has a legal geometry and well-formed rows (R123, R126). -/
theorem l1 {g1 : Geometry} (hg : l1Geometry s.config = some g1) :
    legalGeometry g1 = true ∧ RowsWf g1 s.rows1 := by
  obtain ⟨-, -, hlegal, hcaches, -⟩ := h
  obtain hc | ⟨g2, hc⟩ := l1Geometry_eq_some hg
  all_goals rw [hc] at hlegal hcaches
  · exact ⟨hlegal, hcaches.1⟩
  · exact ⟨(Bool.and_eq_true_iff.1 hlegal).1, hcaches.1⟩

/-- A configured L2 has a legal geometry and well-formed rows (R123, R126). -/
theorem l2 {g1 g2 : Geometry} (hc : s.config = .two g1 g2) :
    legalGeometry g2 = true ∧ RowsWf g2 s.rows2 := by
  obtain ⟨-, -, hlegal, hcaches, -⟩ := h
  rw [hc] at hlegal hcaches
  exact ⟨(Bool.and_eq_true_iff.1 hlegal).2, hcaches.2⟩

theorem setRows1 {g1 : Geometry} (hg : l1Geometry s.config = some g1) {rows : Rows}
    (hwf : RowsWf g1 rows) : Inv (s.setRows1 rows) := by
  refine ⟨h.mem, h.zero, h.legal, ?_, h.events⟩
  show CachesWf s.config rows s.rows2
  have hcaches := h.caches
  obtain hc | ⟨g2, hc⟩ := l1Geometry_eq_some hg
  all_goals
    rw [hc] at hcaches ⊢
    exact ⟨hwf, hcaches.2⟩

theorem setRows2 {g1 g2 : Geometry} (hc : s.config = .two g1 g2) {rows : Rows}
    (hwf : RowsWf g2 rows) : Inv (s.setRows2 rows) := by
  refine ⟨h.mem, h.zero, h.legal, ?_, h.events⟩
  show CachesWf s.config s.rows1 rows
  have hcaches := h.caches
  rw [hc] at hcaches ⊢
  exact ⟨hcaches.1, hwf⟩

/-- An access to L1, of a load or of a store: it touches the row of its address (`touchRows_wf`)
and reports that row. -/
theorem commitL1 {g1 : Geometry} (hg : l1Geometry s.config = some g1) {r : AccessResult}
    {a : MemIndex} (hrows : r.rows = touchRows g1 s.rows1 a) (hrow : r.row = rowOf g1 a)
    (p : Word) : Inv (s.commitL1 r a p) := by
  obtain ⟨hlegal, hwf⟩ := h.l1 hg
  obtain ⟨-, -, hcount⟩ := legalGeometry_pos hlegal
  refine (h.setRows1 hg (hrows ▸ touchRows_wf hlegal hwf a)).emit ?_
  have hlt : r.row < rowCount g1 := hrow ▸ rowOf_lt hcount a
  show EventWf s.config ⟨.l1, r.kind, p, a, r.row⟩
  obtain hc | ⟨g2, hc⟩ := l1Geometry_eq_some hg
  all_goals
    rw [hc]
    exact hlt

/-- An access to L2, of a load or of a store. -/
theorem commitL2 {g1 g2 : Geometry} (hc : s.config = .two g1 g2) {r : AccessResult}
    {a : MemIndex} (hrows : r.rows = touchRows g2 s.rows2 a) (hrow : r.row = rowOf g2 a)
    (p : Word) : Inv (s.commitL2 r a p) := by
  obtain ⟨hlegal, hwf⟩ := h.l2 hc
  obtain ⟨-, -, hcount⟩ := legalGeometry_pos hlegal
  refine (h.setRows2 hc (hrows ▸ touchRows_wf hlegal hwf a)).emit ?_
  have hlt : r.row < rowCount g2 := hrow ▸ rowOf_lt hcount a
  show EventWf s.config ⟨.l2, r.kind, p, a, r.row⟩
  rw [hc]
  exact hlt

/-- A load's cache access (R136). -/
theorem cacheRead (a : MemIndex) (p : Word) : Inv (s.cacheRead a p) := by
  cases hc : s.config with
  | none => rwa [cacheRead_of_no_cache hc]
  | one g1 =>
    rw [cacheRead_of_one a p hc]
    exact h.commitL1 (congrArg l1Geometry hc) rfl rfl p
  | two g1 g2 =>
    have hl1 : Inv (s.commitL1 (readAccess g1 s.rows1 a) a p) :=
      h.commitL1 (congrArg l1Geometry hc) rfl rfl p
    cases hcached : isCached g1 s.rows1 a with
    | true => rwa [cacheRead_of_two_hit p hc hcached]
    | false =>
      rw [cacheRead_of_two_miss p hc hcached]
      exact hl1.commitL2 hc rfl rfl p

/-- A store's cache access (R137). -/
theorem cacheWrite (a : MemIndex) (p : Word) : Inv (s.cacheWrite a p) := by
  cases hc : s.config with
  | none => rwa [cacheWrite_of_no_cache hc]
  | one g1 =>
    rw [cacheWrite_of_one a p hc]
    exact h.commitL1 (congrArg l1Geometry hc) rfl rfl p
  | two g1 g2 =>
    rw [cacheWrite_of_two a p hc]
    exact (h.commitL1 (congrArg l1Geometry hc) rfl rfl p).commitL2 hc rfl rfl p

/-! ### The invariant under a step -/

theorem exec_next {i : Instr} {t : State} (ht : exec i s = .next t) : Inv t := by
  cases exec_eq_next_iff.1 ht with
  | alu => exact h.writeAndAdvance _ _
  | jr => exact h.setPc _
  | j => exact (h.haltIfSelf _).setPc _
  | jal => exact (h.writeReg _ _).setPc _
  | lw => exact ((h.writeReg _ _).cacheRead _ _).advance
  | sw => exact ((h.memWrite _ _).cacheWrite _ _).advance
  | jeq => exact h.setPc _
  | reserved => exact h.advance

end Inv

/-- Settles O7: a halted machine keeps its state, and every instruction that answers a next state
keeps the invariant (`Inv.exec_next`). -/
theorem stepKeepsInvariant : Obligations.StepKeepsInvariant := by
  intro s t h hstep
  obtain ⟨-, ⟨-, rfl⟩ | ⟨-, hexec⟩⟩ := step_next hstep
  · exact h
  · exact h.exec_next hexec

/-! ### The invariant under the host's transactions -/

/-- The rows of a cache as created are well-formed: ROWS_k of them, each empty (R20, R126). -/
theorem emptyRows_wf (g : Geometry) : RowsWf g (emptyRows g) := by
  refine ⟨List.length_replicate, fun row hrow => ?_⟩
  obtain rfl := eq_nil_of_mem_emptyRows hrow
  simp

theorem emptyRows_cachesWf (c : CacheConfig) : CachesWf c (emptyRows1 c) (emptyRows2 c) := by
  cases c with
  | none => exact ⟨rfl, rfl⟩
  | one g1 => exact ⟨emptyRows_wf g1, rfl⟩
  | two g1 g2 => exact ⟨emptyRows_wf g1, emptyRows_wf g2⟩

/-- Reset under a legal configuration brings the machine to a state that satisfies `Inv` (R28). -/
theorem hostReset_inv {s : State} (hl : legalConfig s.config = true) : Inv s.hostReset where
  mem := Memory.nil_wf
  zero := by simp
  legal := hl
  caches := emptyRows_cachesWf s.config
  events := nofun

/-- Settles O2: `hostReset_inv`, of which `State.reset` is the case with no cache. -/
theorem resetSatisfiesInvariant : Obligations.ResetSatisfiesInvariant :=
  ⟨hostReset_inv (s := State.reset) rfl, fun _ hl => hostReset_inv hl⟩

/-- Settles O3: an accepted configuration is legal (`configure_eq_next`), so `hostReset_inv` holds
after it; an accepted image fits (`loadImage_eq_next`), so memory stays canonical
(`Memory.load_wf`). -/
theorem hostTransactionsKeepInvariant : Obligations.HostTransactionsKeepInvariant := by
  refine ⟨fun s t c strict hconf => ?_, fun s t image h hload => ?_⟩
  · obtain ⟨hl, rfl⟩ := (configure_eq_next s t c strict).1 hconf
    exact hostReset_inv hl
  · obtain ⟨hfit, rfl⟩ := (loadImage_eq_next s t image).1 hload
    exact h.setMem (Memory.load_wf h.mem (by simpa [Config.memWords] using hfit))

/-! ### The placing of an instruction (R71) -/

/-- Placing a 16-bit word is writing it at the masked pc and clearing the halted flag
(notes/assumptions/6.md). -/
theorem withFetchWord_toNat (s : State) (w : Word) :
    s.withFetchWord 16 w.toNat = (s.memWrite (maskAddr s.pc) w).setHalted false := by
  rw [State.withFetchWord, Nat.mod_eq_of_lt w.isLt, BitVec.ofNat_toNat, BitVec.setWidth_eq]

/-- Settles O36: the placed word reads as written (`memRead_memWrite`), and the machine is ready, so
the next step carries out the instruction it encodes (`stepRunsTheDecodedInstruction`). -/
theorem placedInstructionRunsNext : Obligations.PlacedInstructionRunsNext := by
  intro s i hl hwf
  rw [withFetchWord_toNat]
  have hread (a : MemIndex) :
      ((s.memWrite (maskAddr s.pc) (encode i)).setHalted false).memRead a =
        if a = maskAddr s.pc then encode i else s.memRead a :=
    memRead_memWrite s (maskAddr s.pc) (encode i) a
  have hword := (hread (maskAddr s.pc)).trans (if_pos rfl)
  obtain ⟨-, hruns⟩ := stepRunsTheDecodedInstruction
    ((s.memWrite (maskAddr s.pc) (encode i)).setHalted false) hl rfl
  exact ⟨hruns i hwf hword, fun a ha => (hread a).trans (if_neg ha), fun _ => rfl, rfl, hword, rfl,
    ⟨rfl, rfl⟩, rfl, rfl, rfl⟩

end Sys2Proof.Machine
